-- ==== Sys2Proof/Word.lean ====
section
/-! DEFINITION. The word types of the block (spec `00_scope.md` R11, R13): unsigned bit vectors of the
stated widths, bit `k` of weight `2^k`, and the shapes of the three register arrays (`10_state.md` R16). -/

namespace Sys2Proof

/-- `u4`: the opcode field of a command word (R42). -/
abbrev U4 := BitVec 4
/-- `u5`: a plane index, and the must-be-zero field (R42, R47). -/
abbrev U5 := BitVec 5
/-- `u6`: a lane index (R46). -/
abbrev U6 := BitVec 6
/-- `u7`: a count operand, and the width of `OCNT` (R16, R45). -/
abbrev U7 := BitVec 7
/-- `u16`: a command word (R40, R42). -/
abbrev U16 := BitVec 16
/-- `u32`: one lane value, an element of `IN` or `OUT` (R16). -/
abbrev U32 := BitVec 32
/-- `u64`: one bit-plane word, one data word of the interface (R16, R40, R41). -/
abbrev U64 := BitVec 64

/-- The shape of `IN` and of `OUT`: 64 lanes of `u32` (R16). -/
abbrev LaneArray := Vector U32 64
/-- The shape of `P`: 32 planes of `u64` (R16, R18). -/
abbrev PlaneArray := Vector U64 32

/-- R13: the `u64` constant with every bit one. -/
abbrev ONES64 : U64 := 0xFFFF_FFFF_FFFF_FFFF#64
/-- R13: the `u64` constant 0. -/
abbrev ZERO64 : U64 := 0#64

end Sys2Proof
end

