-- ==== Sys2Proof/Config.lean ====
section
/-! DEFINITION. The parameters of the block (spec `00_scope.md` R10). All four are fixed constants of this
hardware, not arguments of the model (decision D2). The two open parameters of the spec, `T_CMD` (time from
command to response) and `HANDSHAKE` (signal-level protocol), are unobservable, no rule depends on them, and
`93_implementation_defined.md` V7 says to omit them from the model. The spec leaves no result, flag or
register value undefined, so there is no free value here (INVENTORY.md, What the manual leaves open). -/

namespace Sys2Proof.Config

/-- R10: number of lanes, the width of a bit-plane word. -/
abbrev LANES : Nat := 64
/-- R10: width in bits of one lane value. -/
abbrev WIDTH : Nat := 32
/-- R10: number of bit-plane words; equals `WIDTH`. -/
abbrev PLANES : Nat := 32
/-- R10: the largest legal count operand; equals `LANES`. -/
abbrev COUNT_MAX : Nat := 64

end Sys2Proof.Config
end

