-- ==== Sys2Proof/Syntax.lean ====
section
/-! DEFINITION. The commands of the block as syntax: one constructor per row of the opcode map
(spec `30_encoding.md` R44), the four formats of a command word (R43), the shape of one row of the opcode map,
and the reasons a word is no command (R50). -/

namespace Sys2Proof

/-- A command that decoded (R44, R50). The operand types are the spec's own: `u6` for a lane (R46), `u5` for a
plane (R47), `u7` for a count, which may exceed 64 and is then well-formed but refused (R45). WRV and WRP are
the two commands that use the data word (R48): they carry all 64 bits of `wdata`; what they do with them is
their meaning. -/
inductive Instr where
  /-- WRV `i, v` (R85): write one input lane value. -/
  | wrv (i : U6) (wdata : U64)
  /-- RDV `i` (R86): read one input lane value. -/
  | rdv (i : U6)
  /-- WRP `n, v` (R87): write one bit-plane word. -/
  | wrp (n : U5) (wdata : U64)
  /-- RDP `n` (R88): read one bit-plane word. -/
  | rdp (n : U5)
  /-- RDO `i` (R89): read one output lane value. -/
  | rdo (i : U6)
  /-- RDC (R90): read the output count. -/
  | rdc
  /-- TIN `c` (R56): transpose in. -/
  | tin (c : U7)
  /-- INC (R63): parallel increment. -/
  | inc
  /-- TOUT `c` (R73): transpose out. -/
  | tout (c : U7)
  /-- INCB `c` (R79): the whole pipeline. -/
  | incb (c : U7)
deriving DecidableEq, Repr

/-- R43: the four formats of a command word. -/
inductive Format where
  /-- No operand: all of `arg` must be zero. -/
  | n
  /-- Count operand: all seven bits of `arg`. -/
  | c
  /-- Lane operand: `arg[5:0]`; `arg[6]` must be zero. -/
  | l
  /-- Plane operand: `arg[4:0]`; `arg[6:5]` must be zero. -/
  | p
deriving DecidableEq, Repr

/-- One row of the opcode map of R44: a word `w` selects it when `(w & mask) == pattern`. -/
structure OpcodeRow where
  mnemonic : String
  format   : Format
  pattern  : U16
  mask     : U16
deriving DecidableEq, Repr

/-- R50: why a word is no command, in the order (b), (a), (c), (d), (e) in which `decode` finds them. -/
inductive Illegal where
  /-- (b): `cmd[11:7]` is not zero. -/
  | mbzNonZero
  /-- (a): the opcode is one of the six unassigned values. -/
  | unassignedOpcode
  /-- (c): format N and `arg` is not zero. -/
  | argNonZero
  /-- (d): format L and `cmd[6]` is 1. -/
  | laneBitNonZero
  /-- (e): format P and `cmd[6:5]` is not zero. -/
  | planeBitsNonZero
deriving DecidableEq, Repr

end Sys2Proof
end

