-- ==== Sys2Proof/WellFormed.lean ====
section
/-! DEFINITION. Well-formedness. A decoded command (`Instr`) is well-formed by its types: `u6`, `u5`, `u7` and
`u64` hold exactly the operand values that formats L, P, C and the data word admit (spec `30_encoding.md` R43,
R45 to R48), so no term of `Instr` is ill-formed. What can be ill-formed is a COMMAND WORD, and the checks below
are the five conditions (a) to (e) of R50, one Bool each, stated on the word's bits and independently of the
decoder. -/

namespace Sys2Proof

/-- R44: the format of each assigned opcode; none for the six unassigned values. -/
def formatOf (op : U4) : Option Format :=
  match op.toNat with
  | 0x1 => some .l
  | 0x2 => some .l
  | 0x3 => some .p
  | 0x4 => some .p
  | 0x5 => some .l
  | 0x6 => some .n
  | 0x8 => some .c
  | 0x9 => some .n
  | 0xA => some .c
  | 0xB => some .c
  | _   => none

/-- The format the top four bits of a word select. -/
def wordFormat (w : U16) : Option Format := formatOf (w.extractLsb' 12 4)

/-- R50 (a) does not hold: the opcode is assigned. -/
def opcodeAssigned (w : U16) : Bool := (wordFormat w).isSome

/-- R50 (b) does not hold: bits 11 to 7 are zero. -/
def mbzClear (w : U16) : Bool := w.extractLsb' 7 5 == 0#5

/-- R50 (c) does not hold: not format N, or bits 6 to 0 are zero. -/
def noOperandClear (w : U16) : Bool := wordFormat w != some .n || w.extractLsb' 0 7 == 0#7

/-- R50 (d) does not hold: not format L, or bit 6 is zero. -/
def laneUnusedClear (w : U16) : Bool := wordFormat w != some .l || !w.getLsbD 6

/-- R50 (e) does not hold: not format P, or bits 6 and 5 are zero. -/
def planeUnusedClear (w : U16) : Bool := wordFormat w != some .p || w.extractLsb' 5 2 == 0#2

/-- A word is well-formed when none of R50 (a) to (e) holds. -/
def wordWellFormed (w : U16) : Bool :=
  opcodeAssigned w && mbzClear w && noOperandClear w && laneUnusedClear w && planeUnusedClear w

end Sys2Proof
end

