-- ==== Sys2Proof/Decode.lean ====
section
/-! DEFINITION. The decoder of a command word, total, with a named reason for every word that is no command
(spec `30_encoding.md` R42 to R52); then the opcode map as data (R44) and the encoder, written from the same
tables. A command is the pair `(cmd, wdata)` (R40); `wdata` plays no part in whether a word decodes (R48, R94)
and is handed to the two commands that use it. -/

namespace Sys2Proof

/-- R42: `op = cmd[15:12]`. -/
def opField (w : U16) : U4 := w.extractLsb' 12 4
/-- R42: `mbz = cmd[11:7]`. -/
def mbzField (w : U16) : U5 := w.extractLsb' 7 5
/-- R42: `arg = cmd[6:0]`. -/
def argField (w : U16) : U7 := w.extractLsb' 0 7
/-- R43, R46: the lane index of format L, `arg[5:0]`. -/
def laneField (arg : U7) : U6 := arg.extractLsb' 0 6
/-- R43, R47: the plane index of format P, `arg[4:0]`. -/
def planeField (arg : U7) : U5 := arg.extractLsb' 0 5

/-- Format N (R43): a command without operand, when all of `arg` is zero. -/
def formN (arg : U7) (i : Instr) : Except Illegal Instr :=
  if arg = 0#7 then .ok i else .error .argNonZero

/-- Format L (R43): a command of a lane, when `arg[6]` is zero. -/
def formL (arg : U7) (f : U6 → Instr) : Except Illegal Instr :=
  if arg.extractLsb' 6 1 = 0#1 then .ok (f (laneField arg)) else .error .laneBitNonZero

/-- Format P (R43): a command of a plane, when `arg[6:5]` is zero. -/
def formP (arg : U7) (f : U5 → Instr) : Except Illegal Instr :=
  if arg.extractLsb' 5 2 = 0#2 then .ok (f (planeField arg)) else .error .planeBitsNonZero

/-- Format C (R43, R45): a command of a count; every value of `arg` is one. -/
def formC (arg : U7) (f : U7 → Instr) : Except Illegal Instr := .ok (f arg)

/-- R50: the decoding function, in the order of the spec's own pseudocode: `mbz` first, then the opcode, then
the unused operand bits. -/
def decode (w : U16) (wdata : U64) : Except Illegal Instr :=
  let arg := argField w
  if mbzField w ≠ 0#5 then .error .mbzNonZero
  else match (opField w).toNat with
    | 0x1 => formL arg fun i => .wrv i wdata
    | 0x2 => formL arg fun i => .rdv i
    | 0x3 => formP arg fun n => .wrp n wdata
    | 0x4 => formP arg fun n => .rdp n
    | 0x5 => formL arg fun i => .rdo i
    | 0x6 => formN arg .rdc
    | 0x8 => formC arg fun c => .tin c
    | 0x9 => formN arg .inc
    | 0xA => formC arg fun c => .tout c
    | 0xB => formC arg fun c => .incb c
    | _   => .error .unassignedOpcode

/-- Whether a word decodes. -/
def isCommand (w : U16) (wdata : U64) : Bool :=
  match decode w wdata with
  | .ok _ => true
  | .error _ => false

/-- The mnemonic of a command, as the opcode map spells it (R44). -/
def Instr.mnemonic : Instr → String
  | .wrv _ _ => "WRV"
  | .rdv _ => "RDV"
  | .wrp _ _ => "WRP"
  | .rdp _ => "RDP"
  | .rdo _ => "RDO"
  | .rdc => "RDC"
  | .tin _ => "TIN"
  | .inc => "INC"
  | .tout _ => "TOUT"
  | .incb _ => "INCB"

/-- The opcode of a command (R44). -/
def Instr.opcode : Instr → U4
  | .wrv _ _ => 0x1#4
  | .rdv _ => 0x2#4
  | .wrp _ _ => 0x3#4
  | .rdp _ => 0x4#4
  | .rdo _ => 0x5#4
  | .rdc => 0x6#4
  | .tin _ => 0x8#4
  | .inc => 0x9#4
  | .tout _ => 0xA#4
  | .incb _ => 0xB#4

/-- R44: the opcode map as the spec tables it, `match` and `mask` of every assigned opcode. -/
def opcodeMap : List OpcodeRow :=
  [⟨"WRV", .l, 0x1000#16, 0xFFC0#16⟩, ⟨"RDV", .l, 0x2000#16, 0xFFC0#16⟩,
   ⟨"WRP", .p, 0x3000#16, 0xFFE0#16⟩, ⟨"RDP", .p, 0x4000#16, 0xFFE0#16⟩,
   ⟨"RDO", .l, 0x5000#16, 0xFFC0#16⟩] ++
  [⟨"RDC", .n, 0x6000#16, 0xFFFF#16⟩, ⟨"TIN", .c, 0x8000#16, 0xFF80#16⟩,
   ⟨"INC", .n, 0x9000#16, 0xFFFF#16⟩, ⟨"TOUT", .c, 0xA000#16, 0xFF80#16⟩,
   ⟨"INCB", .c, 0xB000#16, 0xFF80#16⟩]

/-- R44: a word selects a row when `(w & mask) == match`. -/
def OpcodeRow.selects (r : OpcodeRow) (w : U16) : Bool := w &&& r.mask == r.pattern

/-- R44: the rows of the opcode map that a word selects. -/
def rowsOf (w : U16) : List OpcodeRow := opcodeMap.filter fun r => r.selects w

/-- The command word of an instruction, from the Encoding line of each command's rule: `0x1000 | i` (R85),
`0x2000 | i` (R86), `0x3000 | n` (R87), `0x4000 | n` (R88), `0x5000 | i` (R89), `0x6000` (R90), `0x8000 | c`
(R56), `0x9000` (R63), `0xA000 | c` (R73), `0xB000 | c` (R79). -/
def encodeWord : Instr → U16
  | .wrv i _ => 0x1000#16 ||| i.setWidth 16
  | .rdv i => 0x2000#16 ||| i.setWidth 16
  | .wrp n _ => 0x3000#16 ||| n.setWidth 16
  | .rdp n => 0x4000#16 ||| n.setWidth 16
  | .rdo i => 0x5000#16 ||| i.setWidth 16
  | .rdc => 0x6000#16
  | .tin c => 0x8000#16 ||| c.setWidth 16
  | .inc => 0x9000#16
  | .tout c => 0xA000#16 ||| c.setWidth 16
  | .incb c => 0xB000#16 ||| c.setWidth 16

/-- The data word sent with a command: the operand of WRV and WRP, and 0 for every other command (R53). -/
def encodeData : Instr → U64
  | .wrv _ wdata => wdata
  | .rdv _ => 0#64
  | .wrp _ wdata => wdata
  | .rdp _ => 0#64
  | .rdo _ => 0#64
  | .rdc => 0#64
  | .tin _ => 0#64
  | .inc => 0#64
  | .tout _ => 0#64
  | .incb _ => 0#64

/-- The pair `(cmd, wdata)` of an instruction (R40). -/
def encode (i : Instr) : U16 × U64 := (encodeWord i, encodeData i)

/-- The instruction the decoder reads from a word numbered as spec/opcode_table.json numbers it. Every row has
16 bits (R52); the data word, to which the table gives no bits, is zero. -/
def decodeTableWord (nbits w : Nat) : Option Instr :=
  if nbits = 16 ∧ w < 2 ^ 16 then
    match decode (BitVec.ofNat 16 w) 0#64 with
    | .ok i => some i
    | .error _ => none
  else none

end Sys2Proof
end

