-- ==== Sys2Proof/Machine/State.lean ====
section
/-! DEFINITION. The state of the block (spec `10_state.md` R16: exactly `IN`, `P`, `OUT` and `OCNT`), together
with the model's own two fields for the host interface (`30_encoding.md` R40, R41, `70_reset_and_hazards.md`
R105): the host's events still to be taken, and the responses returned so far. Plain data throughout. -/

namespace Sys2Proof.Machine

/-- R41, R91: the three outcomes a response can report. The code of each is `Status.code`. -/
inductive Status where
  /-- The command completed. -/
  | ok
  /-- The command was refused: an operand is out of range (R93). -/
  | outOfRange
  /-- The command was refused: the word is no command (R94). -/
  | illegalCommand
deriving DecidableEq, Repr

/-- R91, R92: the argument of `raise`, with the offending value the spec names for a model's record. The
block does not deliver that value to the host (R92); only the fault's code is. -/
inductive Cause where
  /-- Count operand above 64: TIN, TOUT, INCB (R93). -/
  | countOutOfRange (c : U7)
  /-- Lane operand at or beyond `OCNT`: RDO (R93). -/
  | laneOutOfRange (i : U6)
  /-- A word that is no command (R94). -/
  | illegalCommand (w : U16)
deriving DecidableEq, Repr

/-- R41: a response, the pair `(status, rdata)`, both as the bits on the response channel. -/
structure Response where
  status : BitVec 2
  rdata  : U64
deriving DecidableEq, Repr

/-- What the host can do to the block (R8, R40, R105): send one command, or apply a reset between two
commands. -/
inductive HostEvent where
  /-- One command, the pair `(cmd, wdata)` (R40). -/
  | command (cmd : U16) (wdata : U64)
  /-- The reset event (R105). -/
  | reset
deriving DecidableEq, Repr

/-- The state. `IN`, `P`, `OUT`, `OCNT` are the spec's (R16). `host` and `responses` are the MODEL's
(notes/assumptions/1.md): the two channels of R40 and R41, which one deterministic step reads and writes. -/
structure State where
  /-- R17: the InputBatch values, lane `i` in `IN[i]`. -/
  IN        : LaneArray
  /-- R18: the BitPlaneVector, plane `n` in `P[n]`. -/
  P         : PlaneArray
  /-- R19: the OutputBatch values, lane `i` in `OUT[i]`. -/
  OUT       : LaneArray
  /-- R19: the length of the OutputBatch. -/
  OCNT      : U7
  /-- The host's events not yet taken, next first (R8, R36). -/
  host      : List HostEvent
  /-- The responses returned, oldest first (R9, R36, R41). -/
  responses : List Response
deriving DecidableEq, Repr

/-- Stops of the machine: none. The block "cannot hang, cannot wait and cannot refuse to answer" (R95), every
step ends in a response (R55), and both fault causes of R91 are responses after which the block goes on (R92):
next states, not stops. -/
inductive Fault where
deriving DecidableEq, Repr

/-- Reasons the model gives no meaning. -/
inductive Refusal where
  /-- Raised by `exec` for an instruction that has no meaning yet. Every command of R44 has its meaning, so no
  arm raises it. Safe: the model stops where the hardware goes on. -/
  | notModelled (mnemonic : String)
deriving DecidableEq, Repr

/-- R26, R105: after reset every element is zero. No event is pending and no response has been returned:
nothing runs until the host sends something (notes/assumptions/2.md). -/
def State.reset : State where
  IN        := Vector.replicate 64 0x0000_0000#32
  P         := Vector.replicate 32 0x0000_0000_0000_0000#64
  OUT       := Vector.replicate 64 0x0000_0000#32
  OCNT      := 0#7
  host      := []
  responses := []

/-- What the block finds on its command and reset inputs when it is ready for its next step; the state is the
one with that event taken. -/
inductive Fetched where
  /-- The host presents nothing: the block is idle (R102). -/
  | idle
  /-- The reset event (R105). -/
  | reset (s : State)
  /-- A command that decoded. -/
  | command (i : Instr) (s : State)
  /-- A command word that is no command (R50). -/
  | illegal (w : U16) (s : State)
deriving DecidableEq, Repr

end Sys2Proof.Machine
end

