-- ==== Sys2Proof/Machine/Flags.lean ====
section
/-! DEFINITION. The block has no flags, condition codes or predicates (spec `10_state.md` R23) and no status
register (R24). The only outcome report is the `status` field of the response, whose codes are here
(`60_exceptions.md` R91). -/

namespace Sys2Proof.Machine

/-- R41, R91: the two bits of `status`; the code 3 is never produced. -/
def Status.code : Status → BitVec 2
  | .ok => 0#2
  | .outOfRange => 1#2
  | .illegalCommand => 2#2

/-- R91: the status that reports each cause. -/
def Cause.status : Cause → Status
  | .countOutOfRange _ => .outOfRange
  | .laneOutOfRange _ => .outOfRange
  | .illegalCommand _ => .illegalCommand

end Sys2Proof.Machine
end

