-- ==== Sys2Proof/Machine/Layout.lean ====
section
/-! DEFINITION. The two layouts of a batch, row-major and column-major (spec `00_scope.md` R12, R15), and the
two ways a word is put together from bits: the OR loop of the spec's pseudocode, and the closed form bit by
bit. -/

namespace Sys2Proof.Machine

/-- Element `k` of a register array, for a loop variable of the pseudocode. Every loop of the spec stays inside
its array, so the 0 beyond the end is never a result. -/
def elem {w n : Nat} (v : Vector (BitVec w) n) (k : Nat) : BitVec w := v[k]?.getD 0#w

/-- Write of element `k` by a loop of the pseudocode. -/
def put {w n : Nat} (v : Vector (BitVec w) n) (k : Nat) (x : BitVec w) : Vector (BitVec w) n :=
  v.setIfInBounds k x

/-- `t <- 0; for k = 0 to m-1: t <- t | f k`, the accumulation of R56 and R73; no iteration when `m = 0`. -/
def orLoop {w : Nat} (f : Nat → BitVec w) : Nat → BitVec w
  | 0 => 0#w
  | m + 1 => orLoop f m ||| f m

/-- The word of `w` bits whose bit `k` is `f k`, bit 0 of weight 1 (R11). -/
def ofBits (f : Nat → Bool) : (w : Nat) → BitVec w
  | 0 => 0#0
  | w + 1 => BitVec.cons (f w) (ofBits f w)

/-- R15: `LaneVal(V, i)`, the `u32` whose bit `n` is `V[n][i]`. -/
def laneVal (V : PlaneArray) (i : Nat) : U32 := ofBits (fun n => (elem V n).getLsbD i) Config.WIDTH

/-- R15: `LaneVal(V, i)` as a number, the sum over the first `m` planes of `V[n][i] * 2^n`. -/
def laneSum (V : PlaneArray) (i : Nat) : Nat → Nat
  | 0 => 0
  | m + 1 => laneSum V i m + ((elem V m).getLsbD i).toNat * 2 ^ m

/-- R15: `Planes(S, c)`, with bit `i` of plane `n` equal to bit `n` of `S[i]` for `i < c`, else 0. -/
def planesOf (S : LaneArray) (c : Nat) : PlaneArray :=
  Vector.ofFn fun n : Fin 32 => ofBits (fun i => decide (i < c) && (elem S i).getLsbD n.val) Config.LANES

end Sys2Proof.Machine
end

