-- ==== Sys2Proof/Machine/Operands.lean ====
section
/-! DEFINITION. Operand assembly (spec `30_encoding.md` R45 to R49): counts, lane and plane indices, the use
of `wdata`, and the assembly of `rdata`. Counts and indices are only compared (`41_incrementer.md` R72). -/

namespace Sys2Proof.Machine

/-- R45, R93: the count is the unsigned field, legal from 0 to 64. -/
def countLegal (c : U7) : Bool := decide (c.toNat ≤ Config.COUNT_MAX)

/-- R46: a lane operand is the unsigned field; every value names a lane. -/
def laneIndex (i : U6) : Fin 64 := ⟨i.toNat, i.isLt⟩

/-- R47: a plane operand is the unsigned field; every value names a plane. -/
def planeIndex (n : U5) : Fin 32 := ⟨n.toNat, n.isLt⟩

/-- R48: WRV uses `wdata[31:0]`. -/
def laneData (wdata : U64) : U32 := wdata.setWidth 32

/-- R48: WRP uses all of `wdata[63:0]`. -/
def planeData (wdata : U64) : U64 := wdata

/-- R49: an element of `IN` or `OUT` on the read-data word, zero-extended. -/
def laneRead (v : U32) : U64 := v.setWidth 64

/-- R49: a plane on the read-data word. -/
def planeRead (v : U64) : U64 := v

/-- R49: `OCNT` on the read-data word, zero-extended. -/
def countRead (c : U7) : U64 := c.setWidth 64

/-- R89: lane `i` is an element of an OutputBatch of length `ocnt`. -/
def laneDelivered (i : U6) (ocnt : U7) : Bool := decide (i.toNat < ocnt.toNat)

end Sys2Proof.Machine
end

