-- ==== Sys2Proof/Machine/Ops.lean ====
section
/-! DEFINITION. The shared operations: the writes of the state elements (spec `10_state.md` R16), the normal
end of a command (`respond`, `00_scope.md` R13), the taking of a fault (`raise`, `60_exceptions.md` R92), the
reset event (`70_reset_and_hazards.md` R105) and the idle block (`60_exceptions.md` R102). There is no return
from a fault: nothing is saved and nothing is to be restored (R98). -/

namespace Sys2Proof.Machine

/-- How a step ends. -/
abbrev Result := Host.Outcome State Fault Refusal

/-- `IN[k] <- v`. -/
def State.writeIN (s : State) (k : Fin 64) (v : U32) : State := { s with IN := s.IN.set k v }

/-- `P[k] <- v`. -/
def State.writeP (s : State) (k : Fin 32) (v : U64) : State := { s with P := s.P.set k v }

/-- All of `P` at once (TIN, INC; R28). -/
def State.setPlanes (s : State) (p : PlaneArray) : State := { s with P := p }

/-- All of `OUT`, and `OCNT`; they are always written together (R19). -/
def State.setOutput (s : State) (out : LaneArray) (cnt : U7) : State := { s with OUT := out, OCNT := cnt }

/-- One response more on the response channel, after the earlier ones (R36, R41). -/
def State.pushResponse (s : State) (r : Response) : State := { s with responses := s.responses ++ [r] }

/-- The host's event has been taken; `rest` is what it still has to present. -/
def State.takeEvent (s : State) (rest : List HostEvent) : State := { s with host := rest }

/-- R105, R26: every state element of the block at its reset value. The channels are the host's and keep what
they hold. -/
def State.clearBlock (s : State) : State :=
  { s with IN := State.reset.IN, P := State.reset.P, OUT := State.reset.OUT, OCNT := State.reset.OCNT }

/-- R13, R41: end the command with status `OK` and the given read data. -/
def respond (rdata : U64) (s : State) : Result :=
  .next (s.pushResponse ⟨Status.ok.code, rdata⟩)

/-- R92: take a fault. No state element is written, the response is `(code of the fault, 0)`, and the block is
ready for the next command. -/
def raise (cause : Cause) (s : State) : Result :=
  .next (s.pushResponse ⟨cause.status.code, 0#64⟩)

/-- R56, R73, R79: a command of a count. The check stands before the first write (R92); a legal count performs
the body and responds with no data (R49). -/
def withCount (c : U7) (body : State → State) (s : State) : Result :=
  if countLegal c then respond 0#64 (body s) else raise (.countOutOfRange c) s

/-- R105: the reset event, without a response. -/
def applyReset (s : State) : Result := .next s.clearBlock

/-- R102: between commands the block is idle and holds its state. -/
def idle (s : State) : Result := .next s

end Sys2Proof.Machine
end

