-- ==== Sys2Proof/Machine/DataMovement.lean ====
section
/-! DEFINITION. The six data-movement commands (spec `44_data_movement.md`), the block's only loads and
stores. -/

namespace Sys2Proof.Machine

/-- WRV `i, v` (R85): `IN[i] <- trunc_32(wdata)`. -/
def execWrv (i : U6) (wdata : U64) (s : State) : Result :=
  respond 0#64 (s.writeIN (laneIndex i) (laneData wdata))

/-- RDV `i` (R86): every lane of `IN` is readable. -/
def execRdv (i : U6) (s : State) : Result := respond (laneRead s.IN[laneIndex i]) s

/-- WRP `n, v` (R87): `P[n] <- wdata`; any word is accepted. -/
def execWrp (n : U5) (wdata : U64) (s : State) : Result :=
  respond 0#64 (s.writeP (planeIndex n) (planeData wdata))

/-- RDP `n` (R88): all 64 bits of the plane. -/
def execRdp (n : U5) (s : State) : Result := respond (planeRead s.P[planeIndex n]) s

/-- RDO `i` (R89): refused with `OutOfRange` when `i >= OCNT`. -/
def execRdo (i : U6) (s : State) : Result :=
  if laneDelivered i s.OCNT then respond (laneRead s.OUT[laneIndex i]) s else raise (.laneOutOfRange i) s

/-- RDC (R90). -/
def execRdc (s : State) : Result := respond (countRead s.OCNT) s

end Sys2Proof.Machine
end

