-- ==== Sys2Proof/Machine/Incrementer.lean ====
section
/-! DEFINITION. The Bit-Sliced Incrementer stage and its command INC (spec `41_incrementer.md`). The algorithm
is normative step for step (R64), so the meaning is the loop itself. -/

namespace Sys2Proof.Machine

/-- One half-adder step on plane `n` (R64): both results come from the pre-update plane and the pre-update
carry (R66). -/
def incStep (r : PlaneArray × U64) (n : Nat) : PlaneArray × U64 :=
  let old := elem r.1 n
  let cin := r.2
  (put r.1 n (old ^^^ cin), old &&& cin)

/-- The planes and the carry after the steps `n = 0` to `m - 1`, in ascending order (R65); the carry is
seeded with `ONES64` at the start of every increment (R20, R65). -/
def incLoop (p : PlaneArray) : Nat → PlaneArray × U64
  | 0 => (p, ONES64)
  | m + 1 => incStep (incLoop p m) m

/-- R64, R67: all 32 planes; the carry out of plane 31 is dropped. -/
def incPlanes (p : PlaneArray) : PlaneArray := (incLoop p Config.PLANES).1

/-- The body of INC without its `respond`: `P` in place (R71). -/
def incBody (s : State) : State := s.setPlanes (incPlanes s.P)

/-- INC (R63, R64): all 64 lanes, no fault. -/
def execInc (s : State) : Result := respond 0#64 (incBody s)

end Sys2Proof.Machine
end

