-- ==== Sys2Proof/Machine/TransposeIn.lean ====
section
/-! DEFINITION. The Transpose-In stage and its command TIN (spec `40_transpose_in.md`). -/

namespace Sys2Proof.Machine

/-- R56: what one `(i, n)` pair contributes to plane `n`: `zext_64((IN[i] >> n) & 1) << i`. -/
def tinBit (IN : LaneArray) (n i : Nat) : U64 := (((elem IN i >>> n) &&& 1#32).setWidth 64) <<< i

/-- R56: the fresh vector `t` after the loop over `i = 0 to c-1`. The spec's two loops write `t[n]` for one `n`
only from the pairs `(i, n)`, in ascending `i`, so each plane is accumulated on its own (R62). -/
def tinPlanes (IN : LaneArray) (c : Nat) : PlaneArray :=
  Vector.ofFn fun n : Fin 32 => orLoop (tinBit IN n.val) c

/-- The body of TIN without its `respond`: every bit of `P` is overwritten (R57). -/
def tinBody (c : U7) (s : State) : State := s.setPlanes (tinPlanes s.IN c.toNat)

/-- TIN `c` (R56, R59). -/
def execTin (c : U7) (s : State) : Result := withCount c (tinBody c) s

end Sys2Proof.Machine
end

