-- ==== Sys2Proof/Machine/TransposeOut.lean ====
section
/-! DEFINITION. The Transpose-Out stage and its command TOUT (spec `42_transpose_out.md`). -/

namespace Sys2Proof.Machine

/-- R73: what one `(i, n)` pair contributes to the value of lane `i`:
`trunc_32(zext_64((P[n] >> i) & 1)) << n`. -/
def toutBit (P : PlaneArray) (i n : Nat) : U32 :=
  ((((elem P n >>> i) &&& 1#64).setWidth 64).setWidth 32) <<< n

/-- R73, R74: lane `i` is rebuilt from the planes when `i < c`, and is 0 otherwise. -/
def toutLanes (P : PlaneArray) (c : Nat) : LaneArray :=
  Vector.ofFn fun i : Fin 64 =>
    if i.val < c then orLoop (toutBit P i.val) Config.PLANES else 0x0000_0000#32

/-- The body of TOUT without its `respond`: every bit of `OUT`, and `OCNT` (R73). -/
def toutBody (c : U7) (s : State) : State := s.setOutput (toutLanes s.P c.toNat) c

/-- TOUT `c` (R73, R75). -/
def execTout (c : U7) (s : State) : Result := withCount c (toutBody c) s

end Sys2Proof.Machine
end

