-- ==== Sys2Proof/Machine/IncrementBatch.lean ====
section
/-! DEFINITION. The whole pipeline as one command, INCB (spec `43_increment_batch.md`). -/

namespace Sys2Proof.Machine

/-- R79: the bodies of TIN `c`, INC and TOUT `c`, in this order, without their `respond`. -/
def incbBody (c : U7) (s : State) : State := toutBody c (incBody (tinBody c s))

/-- INCB `c` (R79, R81): one count check before anything is written, one response. -/
def execIncb (c : U7) (s : State) : Result := withCount c (incbBody c) s

end Sys2Proof.Machine
end

