-- ==== Sys2Proof/Machine/Dispatch.lean ====
section
/-! DEFINITION. One arm per command of the opcode map (spec `30_encoding.md` R44, R55). -/

namespace Sys2Proof.Machine

def exec (i : Instr) (s : State) : Host.Outcome State Fault Refusal :=
  match i with
  | .wrv lane wdata => Sys2Proof.Machine.execWrv lane wdata s
  | .rdv lane => Sys2Proof.Machine.execRdv lane s
  | .wrp plane wdata => Sys2Proof.Machine.execWrp plane wdata s
  | .rdp plane => Sys2Proof.Machine.execRdp plane s
  | .rdo lane => Sys2Proof.Machine.execRdo lane s
  | .rdc => Sys2Proof.Machine.execRdc s
  | .tin c => Sys2Proof.Machine.execTin c s
  | .inc => Sys2Proof.Machine.execInc s
  | .tout c => Sys2Proof.Machine.execTout c s
  | .incb c => Sys2Proof.Machine.execIncb c s

end Sys2Proof.Machine
end

