-- ==== Sys2Proof/Machine/Fetch.lean ====
section
/-! DEFINITION. How a command reaches the block. There is no program counter and no instruction memory (spec
`10_state.md` R22): the host presents commands one at a time, and the order in which it presents them is the
program order (`00_scope.md` R8, R9, `20_memory.md` R36). -/

namespace Sys2Proof.Machine

/-- R55: take the next event the host presents; decode a command. -/
def fetch (s : State) : Fetched :=
  match s.host with
  | [] => .idle
  | .reset :: rest => .reset (s.takeEvent rest)
  | .command cmd wdata :: rest =>
    match decode cmd wdata with
    | .ok i => .command i (s.takeEvent rest)
    | .error _ => .illegal cmd (s.takeEvent rest)

/-- The host presents `e` before anything else it has to present. -/
def State.presentFirst (s : State) (e : HostEvent) : State := { s with host := e :: s.host }

/-- The host presents `es` after what it already has to present. -/
def State.present (s : State) (es : List HostEvent) : State := { s with host := s.host ++ es }

/-- A word of spec/opcode_table.json as the event that sends it, with a data word of zeros. -/
def tableWordEvent (nbits w : Nat) : HostEvent := .command (BitVec.ofNat 16 (w % 2 ^ nbits)) 0#64

end Sys2Proof.Machine
end

