-- ==== Sys2Proof/Machine/Step.lean ====
section
/-! DEFINITION. One step of the block (spec `00_scope.md` R7, `30_encoding.md` R55): take what the host
presents and perform it completely. -/

namespace Sys2Proof.Machine

/-- R55: decode the command; perform it, or refuse it with `IllegalCommand`. A reset event puts the block at
its reset values (R105); with nothing presented the block is idle (R102). -/
def step (s : State) : Host.Outcome State Fault Refusal :=
  match fetch s with
  | .idle => idle s
  | .reset s' => applyReset s'
  | .command i s' => exec i s'
  | .illegal w s' => raise (.illegalCommand w) s'

/-- The state in which the host presents a word of spec/opcode_table.json next, with a data word of zeros. -/
def State.withFetchWord (s : State) (nbits w : Nat) : State := s.presentFirst (tableWordEvent nbits w)

end Sys2Proof.Machine
end

