-- ==== Sys2Proof/Machine/Asm.lean ====
section
/-! DEFINITION. The assembler syntax (spec `30_encoding.md` R53, R54): a command as text, one a line, and the
pair `(cmd, wdata)` it stands for. Text is a list of characters, so that the kernel can assemble a line. There
are no pseudo-instructions: every statement is one command (R54). -/

namespace Sys2Proof.Machine

/-- R53: a command in its textual form, operands as the numbers written. -/
inductive AsmStmt where
  | wrv (i v : Nat)
  | rdv (i : Nat)
  | wrp (n v : Nat)
  | rdp (n : Nat)
  | rdo (i : Nat)
  | rdc
  | tin (c : Nat)
  | inc
  | tout (c : Nat)
  | incb (c : Nat)
deriving DecidableEq, Repr

/-- Why a line does not assemble. -/
inductive AsmError where
  /-- R53: an operand outside its field. -/
  | operandOutsideField
  /-- The number of operands is not the one the mnemonic takes. -/
  | wrongOperands
  /-- A number that is neither decimal nor hexadecimal. -/
  | badNumber
  /-- No mnemonic of R53. -/
  | unknownMnemonic
deriving DecidableEq, Repr

/-- R53: a lane operand, `i <= 63`. -/
def asmLane (i : Nat) (f : U6 → Instr) : Except AsmError Instr :=
  if i ≤ 63 then .ok (f (BitVec.ofNat 6 i)) else .error .operandOutsideField

/-- R53: a plane operand, `n <= 31`. -/
def asmPlane (n : Nat) (f : U5 → Instr) : Except AsmError Instr :=
  if n ≤ 31 then .ok (f (BitVec.ofNat 5 n)) else .error .operandOutsideField

/-- R53: a count operand, `c <= 127`; counts above 64 are accepted here and refused by the block. -/
def asmCount (c : Nat) (f : U7 → Instr) : Except AsmError Instr :=
  if c ≤ 127 then .ok (f (BitVec.ofNat 7 c)) else .error .operandOutsideField

/-- R53: the command of a statement. The data value of `wrv` is below `2^32` and is zero-extended; that of
`wrp` is below `2^64`. -/
def AsmStmt.instr : AsmStmt → Except AsmError Instr
  | .wrv i v =>
    if v < 2 ^ 32 then asmLane i fun k => .wrv k (BitVec.ofNat 64 v) else .error .operandOutsideField
  | .rdv i => asmLane i fun k => .rdv k
  | .wrp n v =>
    if v < 2 ^ 64 then asmPlane n fun k => .wrp k (BitVec.ofNat 64 v) else .error .operandOutsideField
  | .rdp n => asmPlane n fun k => .rdp k
  | .rdo i => asmLane i fun k => .rdo k
  | .rdc => .ok .rdc
  | .tin c => asmCount c fun k => .tin k
  | .inc => .ok .inc
  | .tout c => asmCount c fun k => .tout k
  | .incb c => asmCount c fun k => .incb k

/-- R53: the pair `(cmd, wdata)` of a statement. -/
def AsmStmt.assemble (a : AsmStmt) : Except AsmError (U16 × U64) := a.instr.map encode

/-- The value of a digit in a base of 10 or 16. -/
def digitValue (base : Nat) (ch : Char) : Option Nat :=
  let k := ch.toNat
  if 48 ≤ k ∧ k ≤ 57 then some (k - 48)
  else if base = 16 ∧ 65 ≤ k ∧ k ≤ 70 then some (k - 55)
  else if base = 16 ∧ 97 ≤ k ∧ k ≤ 102 then some (k - 87)
  else none

/-- R53: digits of one base; an underscore may stand between two digits. -/
def digitsValue (base : Nat) : Nat → Bool → List Char → Option Nat
  | acc, afterDigit, [] => if afterDigit then some acc else none
  | acc, afterDigit, ch :: cs =>
    if ch = '_' then
      if afterDigit then digitsValue base acc false cs else none
    else match digitValue base ch with
      | some d => digitsValue base (acc * base + d) true cs
      | none => none

/-- R53: a number, decimal or hexadecimal with the prefix `0x`. -/
def asmNumber (cs : List Char) : Option Nat :=
  match cs with
  | '0' :: 'x' :: ds => digitsValue 16 0 false ds
  | ds => digitsValue 10 0 false ds

/-- A space or a tab. -/
def isBlank (ch : Char) : Bool := ch == ' ' || ch == '\t'

/-- Text without the blanks at either end. -/
def trimBlanks (cs : List Char) : List Char :=
  ((cs.dropWhile isBlank).reverse.dropWhile isBlank).reverse

/-- The pieces of a text between occurrences of a separator. -/
def splitAtChar (sep : Char) : List Char → List (List Char)
  | [] => [[]]
  | ch :: cs =>
    match splitAtChar sep cs with
    | [] => [[ch]]
    | p :: ps => if ch = sep then [] :: p :: ps else (ch :: p) :: ps

/-- The operand texts of a command: none when nothing follows the mnemonic, else separated by commas. -/
def asmOperands (cs : List Char) : List (Option Nat) :=
  match trimBlanks cs with
  | [] => []
  | text => (splitAtChar ',' text).map fun piece => asmNumber (trimBlanks piece)

/-- A command without operand. -/
def asmForm0 (a : AsmStmt) (ops : List (Option Nat)) : Except AsmError AsmStmt :=
  match ops with
  | [] => .ok a
  | _ :: _ => .error .wrongOperands

/-- A command with one operand. -/
def asmForm1 (f : Nat → AsmStmt) (ops : List (Option Nat)) : Except AsmError AsmStmt :=
  match ops with
  | [some x] => .ok (f x)
  | [none] => .error .badNumber
  | _ => .error .wrongOperands

/-- A command with two operands. -/
def asmForm2 (f : Nat → Nat → AsmStmt) (ops : List (Option Nat)) : Except AsmError AsmStmt :=
  match ops with
  | [some x, some y] => .ok (f x y)
  | [_, _] => .error .badNumber
  | _ => .error .wrongOperands

/-- R53: the statement of a mnemonic, in lower case, and its operands. -/
def asmStatement (mnemonic : List Char) (ops : List (Option Nat)) : Except AsmError AsmStmt :=
  if mnemonic = ['w', 'r', 'v'] then asmForm2 .wrv ops
  else if mnemonic = ['r', 'd', 'v'] then asmForm1 .rdv ops
  else if mnemonic = ['w', 'r', 'p'] then asmForm2 .wrp ops
  else if mnemonic = ['r', 'd', 'p'] then asmForm1 .rdp ops
  else if mnemonic = ['r', 'd', 'o'] then asmForm1 .rdo ops
  else if mnemonic = ['r', 'd', 'c'] then asmForm0 .rdc ops
  else if mnemonic = ['t', 'i', 'n'] then asmForm1 .tin ops
  else if mnemonic = ['i', 'n', 'c'] then asmForm0 .inc ops
  else if mnemonic = ['t', 'o', 'u', 't'] then asmForm1 .tout ops
  else if mnemonic = ['i', 'n', 'c', 'b'] then asmForm1 .incb ops
  else .error .unknownMnemonic

/-- R53: the statement on one line, after the comment from `;` on is dropped; none on a line that holds no
command. -/
def parseLine (line : List Char) : Except AsmError (Option AsmStmt) :=
  match trimBlanks (line.takeWhile fun ch => ch != ';') with
  | [] => .ok none
  | text =>
    (asmStatement (text.takeWhile fun ch => !isBlank ch) (asmOperands (text.dropWhile fun ch => !isBlank ch))).map some

/-- R53: the command of one line. -/
def assembleLine (line : List Char) : Except AsmError (Option (U16 × U64)) :=
  match parseLine line with
  | .error e => .error e
  | .ok none => .ok none
  | .ok (some a) => a.assemble.map some

/-- R53: the commands of a list of lines, in order. -/
def assembleLines : List (List Char) → Except AsmError (List (U16 × U64))
  | [] => .ok []
  | line :: lines =>
    match assembleLine line, assembleLines lines with
    | .ok (some c), .ok cs => .ok (c :: cs)
    | .ok none, .ok cs => .ok cs
    | .error e, _ => .error e
    | .ok _, .error e => .error e

/-- R53: a text, one command per line. -/
def assembleText (text : List Char) : Except AsmError (List (U16 × U64)) :=
  assembleLines (splitAtChar '\n' text)

end Sys2Proof.Machine
end

