-- ==== Sys2Proof/Safety.lean ====
section
/-! DEFINITION. What counts as a safe state and a safe run. -/

namespace Sys2Proof.Safety

open Sys2Proof.Machine

/-- R19: the legal states. `OCNT` is in 0..64, and the elements of `OUT` at or beyond `OCNT`, which are not part
of the OutputBatch, hold 0. -/
def LegalState (s : State) : Prop :=
  s.OCNT.toNat ≤ 64 ∧ ∀ i : Fin 64, s.OCNT.toNat ≤ i.val → s.OUT[i] = 0x0000_0000#32

/-- R41, R91: no response returned carries the status 3, and a refusal carries no data. -/
def ResponsesLegal (s : State) : Prop :=
  ∀ r ∈ s.responses, r.status ≠ 3#2 ∧ (r.status ≠ 0#2 → r.rdata = 0#64)

/-- The four elements of R16 are the same in both states. -/
def SameBlock (s t : State) : Prop :=
  t.IN = s.IN ∧ t.P = s.P ∧ t.OUT = s.OUT ∧ t.OCNT = s.OCNT

/-- R16, the table's column "read by": TIN, INCB and RDV read `IN`. -/
def readsIN : Instr → Bool
  | .wrv _ _ => false
  | .rdv _ => true
  | .wrp _ _ => false
  | .rdp _ => false
  | .rdo _ => false
  | .rdc => false
  | .tin _ => true
  | .inc => false
  | .tout _ => false
  | .incb _ => true

/-- R16: INC, TOUT, INCB and RDP read `P`. INCB first overwrites every bit of it (R57), so what `P` held before
the command is no source of INCB. -/
def readsP : Instr → Bool
  | .wrv _ _ => false
  | .rdv _ => false
  | .wrp _ _ => false
  | .rdp _ => true
  | .rdo _ => false
  | .rdc => false
  | .tin _ => false
  | .inc => true
  | .tout _ => true
  | .incb _ => false

/-- R16: RDO reads `OUT`. -/
def readsOUT : Instr → Bool
  | .wrv _ _ => false
  | .rdv _ => false
  | .wrp _ _ => false
  | .rdp _ => false
  | .rdo _ => true
  | .rdc => false
  | .tin _ => false
  | .inc => false
  | .tout _ => false
  | .incb _ => false

/-- R16: RDO and RDC read `OCNT`. -/
def readsOCNT : Instr → Bool
  | .wrv _ _ => false
  | .rdv _ => false
  | .wrp _ _ => false
  | .rdp _ => false
  | .rdo _ => true
  | .rdc => true
  | .tin _ => false
  | .inc => false
  | .tout _ => false
  | .incb _ => false

/-- R16, the table's column "written by": WRV writes `IN`. -/
def writesIN : Instr → Bool
  | .wrv _ _ => true
  | .rdv _ => false
  | .wrp _ _ => false
  | .rdp _ => false
  | .rdo _ => false
  | .rdc => false
  | .tin _ => false
  | .inc => false
  | .tout _ => false
  | .incb _ => false

/-- R16: TIN, INC, INCB and WRP write `P`. -/
def writesP : Instr → Bool
  | .wrv _ _ => false
  | .rdv _ => false
  | .wrp _ _ => true
  | .rdp _ => false
  | .rdo _ => false
  | .rdc => false
  | .tin _ => true
  | .inc => true
  | .tout _ => false
  | .incb _ => true

/-- R16: TOUT and INCB write `OUT` and `OCNT`. -/
def writesOutput : Instr → Bool
  | .wrv _ _ => false
  | .rdv _ => false
  | .wrp _ _ => false
  | .rdp _ => false
  | .rdo _ => false
  | .rdc => false
  | .tin _ => false
  | .inc => false
  | .tout _ => true
  | .incb _ => true

/-- Which events are commands; each of them gets a response, and a reset gets none (R41, R105). -/
def isCommandEvent : HostEvent → Bool
  | .command _ _ => true
  | .reset => false

/-- R9: the run of a list of host events from a state, one step each. -/
def run (es : List HostEvent) (s : State) : Host.Outcome State Fault Refusal :=
  Sys2Proof.core.run es.length (s.present es)

/-- A run is safe when it ends in a next state that is legal. -/
def SafeRun (es : List HostEvent) (s : State) : Prop :=
  ∃ t, run es s = .next t ∧ LegalState t ∧ ResponsesLegal t

end Sys2Proof.Safety
end

