-- ==== Sys2Proof/Certificates/Slice0/Obligations.lean ====
section
/-! DEFINITION. The statements for the provers, from the numbered rules of the spec. A count operand is legal
when `c.toNat ≤ 64` (spec R45); `s.IN[i]`, `s.P[n]`, `s.OUT[i]` with `i : Fin 64`, `n : Fin 32` are the elements
of the register arrays; bit `k` of a word is `getLsbD k` (R11). -/

open Sys2Proof Sys2Proof.Machine Sys2Proof.Safety

/-! ### Encoding and decoding -/

/-- R53's table and the decoding vectors V20 of `95_test_vectors.md`: these words decode to these commands, and
these are no command. -/
def Obligations.SampleWordsDecode : Prop :=
  decode 0x1000#16 5#64 = .ok (.wrv 0#6 5#64) ∧ decode 0x2001#16 0#64 = .ok (.rdv 1#6) ∧
  decode 0x301F#16 0x8000000000000001#64 = .ok (.wrp 31#5 0x8000000000000001#64) ∧
  decode 0x4000#16 0#64 = .ok (.rdp 0#5) ∧ decode 0x5002#16 0#64 = .ok (.rdo 2#6) ∧
  decode 0x6000#16 0#64 = .ok .rdc ∧ decode 0x8041#16 0#64 = .ok (.tin 65#7) ∧
  decode 0x9000#16 0#64 = .ok .inc ∧ decode 0xA003#16 0#64 = .ok (.tout 3#7) ∧
  decode 0xB040#16 0#64 = .ok (.incb 64#7) ∧ decode 0x0000#16 0#64 = .error .unassignedOpcode ∧
  decode 0x1040#16 0#64 = .error .laneBitNonZero ∧ decode 0x4040#16 0#64 = .error .planeBitsNonZero ∧
  decode 0x6001#16 0#64 = .error .argNonZero ∧ decode 0x8841#16 0#64 = .error .mbzNonZero ∧
  decode 0xFFFF#16 0#64 = .error .mbzNonZero

/-- R42 to R48: decoding the command word and data word of an instruction gives the instruction back, for every
instruction and every operand value. -/
def Obligations.DecodeOfEncodeIsTheInstruction : Prop :=
  ∀ i : Instr, decode (encode i).1 (encode i).2 = .ok i

/-- R44, R50: a word that decodes is the word of the instruction it decodes to, and the data word of WRV and WRP
is the one sent. -/
def Obligations.EncodeOfDecodeIsTheWord : Prop :=
  ∀ (w : U16) (wdata : U64) (i : Instr), decode w wdata = .ok i →
    encodeWord i = w ∧ (∀ k d, i = .wrv k d → d = wdata) ∧ (∀ n d, i = .wrp n d → d = wdata)

/-- R50: decoding is total, and a word is illegal exactly when one of (a) to (e) holds. -/
def Obligations.WordIsIllegalExactlyByTheFiveConditions : Prop :=
  ∀ (w : U16) (wdata : U64),
    ((∃ i, decode w wdata = .ok i) ∨ ∃ e, decode w wdata = .error e) ∧
    ((∃ e, decode w wdata = .error e) ↔
      (w.extractLsb' 12 4 ∈ [0x0#4, 0x7#4, 0xC#4, 0xD#4, 0xE#4, 0xF#4] ∨
       w.extractLsb' 7 5 ≠ 0#5 ∨
       (w.extractLsb' 12 4 ∈ [0x6#4, 0x9#4] ∧ w.extractLsb' 0 7 ≠ 0#7) ∨
       (w.extractLsb' 12 4 ∈ [0x1#4, 0x2#4, 0x5#4] ∧ w.getLsbD 6 = true) ∨
       (w.extractLsb' 12 4 ∈ [0x3#4, 0x4#4] ∧ w.extractLsb' 5 2 ≠ 0#2)))

/-- R50 as the independent checks of WellFormed.lean: the words that decode are the well-formed words. -/
def Obligations.DecodedWordsAreTheWellFormedWords : Prop :=
  ∀ (w : U16) (wdata : U64), isCommand w wdata = wordWellFormed w

/-- R44: a word selects at most one row of the opcode map; a word that selects none is illegal; a word that
decodes selects the one row of its command's mnemonic. -/
def Obligations.WordSelectsTheRowOfItsCommand : Prop :=
  ∀ (w : U16) (wdata : U64),
    (rowsOf w).length ≤ 1 ∧ (rowsOf w = [] → ∃ e, decode w wdata = .error e) ∧
    ∀ i, decode w wdata = .ok i → (rowsOf w).map (fun r => r.mnemonic) = [i.mnemonic]

/-- The spec's own count R51, derived there: a word with must-be-zero bits set is illegal; of the 2048 words without (16 opcodes by 128 values of
`arg`) 642 are legal, and 189 of those are TIN, TOUT or INCB with a count above 64. -/
def Obligations.LegalWordCounts : Prop :=
  (∀ (w : U16) (wdata : U64), w.extractLsb' 7 5 ≠ 0#5 → isCommand w wdata = false) ∧
  ((List.range 2048).countP fun k =>
    isCommand (BitVec.ofNat 4 (k / 128) ++ 0#5 ++ BitVec.ofNat 7 (k % 128)) 0#64) = 642 ∧
  ((List.range 2048).countP fun k =>
    match decode (BitVec.ofNat 4 (k / 128) ++ 0#5 ++ BitVec.ofNat 7 (k % 128)) 0#64 with
    | .ok (.tin c) => decide (64 < c.toNat)
    | .ok (.tout c) => decide (64 < c.toNat)
    | .ok (.incb c) => decide (64 < c.toNat)
    | _ => false) = 189

/-! ### The step -/

/-- R55: the step on a command `(cmd, wdata)` is the execution of the command it decodes to, or the refusal with
`IllegalCommand`; the event is taken from the host. -/
def Obligations.StepPerformsTheDecodedCommand : Prop :=
  ∀ (s : State) (rest : List HostEvent) (w : U16) (wdata : U64), s.host = .command w wdata :: rest →
    (∀ i, decode w wdata = .ok i → step s = exec i { s with host := rest }) ∧
    (∀ e, decode w wdata = .error e →
      step s = .next { s with host := rest, responses := s.responses ++ [⟨2#2, 0#64⟩] })

/-- R97: the word is decoded first. A word that does not decode is refused with `IllegalCommand`, whatever its
`arg` bits would mean: among them every word with must-be-zero bits set, RDO's opcode with bit 6 set (`0x5040`),
and the unassigned opcode 7 with `arg = 65` (`0x7041`). A response of status 1 comes only from a word that
decodes; and the words of TIN, TOUT and INCB with a count above 64, and of RDO with a lane at or beyond `OCNT`,
are refused with `OutOfRange`. -/
def Obligations.IllegalCommandComesBeforeOutOfRange : Prop :=
  (∀ (s : State) (rest : List HostEvent) (w : U16) (wdata : U64), s.host = .command w wdata :: rest →
    ((∃ e, decode w wdata = .error e) ∨ w.extractLsb' 7 5 ≠ 0#5 ∨ w = 0x5040#16 ∨ w = 0x7041#16) →
    step s = .next { s with host := rest, responses := s.responses ++ [⟨2#2, 0#64⟩] }) ∧
  (∀ (s t : State) (rest : List HostEvent) (w : U16) (wdata : U64) (r : Response),
    s.host = .command w wdata :: rest → step s = .next t → t.responses = s.responses ++ [r] →
    r.status = 1#2 → ∃ i, decode w wdata = .ok i) ∧
  (∀ (s : State) (rest : List HostEvent) (w : U16) (wdata : U64) (c : U7), s.host = .command w wdata :: rest →
    64 < c.toNat →
    w = 0x8000#16 ||| c.setWidth 16 ∨ w = 0xA000#16 ||| c.setWidth 16 ∨ w = 0xB000#16 ||| c.setWidth 16 →
    step s = .next { s with host := rest, responses := s.responses ++ [⟨1#2, 0#64⟩] }) ∧
  (∀ (s : State) (rest : List HostEvent) (wdata : U64) (i : U6),
    s.host = .command (0x5000#16 ||| i.setWidth 16) wdata :: rest → s.OCNT.toNat ≤ i.toNat →
    step s = .next { s with host := rest, responses := s.responses ++ [⟨1#2, 0#64⟩] })

/-- R105 with the values of R26: a reset event zeroes `IN`, `P`, `OUT` and `OCNT`, returns no response, and
leaves the block ready. -/
def Obligations.ResetEventZeroesTheBlock : Prop :=
  ∀ (s : State) (rest : List HostEvent), s.host = .reset :: rest →
    ∃ t, step s = .next t ∧ (∀ i : Fin 64, t.IN[i] = 0#32) ∧ (∀ n : Fin 32, t.P[n] = 0#64) ∧
      (∀ i : Fin 64, t.OUT[i] = 0#32) ∧ t.OCNT = 0#7 ∧ t.responses = s.responses ∧ t.host = rest

/-- R26: the state after reset. -/
def Obligations.ResetStateIsZero : Prop :=
  (∀ i : Fin 64, State.reset.IN[i] = 0x0000_0000#32) ∧
  (∀ n : Fin 32, State.reset.P[n] = 0x0000_0000_0000_0000#64) ∧
  (∀ i : Fin 64, State.reset.OUT[i] = 0x0000_0000#32) ∧ State.reset.OCNT = 0#7

/-- R102: with nothing presented the block is idle and holds its state. -/
def Obligations.IdleBlockHoldsItsState : Prop :=
  ∀ s : State, s.host = [] → step s = .next s

/-- R41, R91: a command returns exactly one response, after the earlier ones; its status is 0, 1 or 2, never 3,
and 2 exactly for a word that is no command; a refusal carries no data. -/
def Obligations.EveryCommandGetsOneResponse : Prop :=
  ∀ (s : State) (rest : List HostEvent) (w : U16) (wdata : U64), s.host = .command w wdata :: rest →
    ∃ t r, step s = .next t ∧ t.responses = s.responses ++ [r] ∧ t.host = rest ∧
      (r.status = 0#2 ∨ r.status = 1#2 ∨ r.status = 2#2) ∧
      (r.status = 2#2 ↔ ∃ e, decode w wdata = .error e) ∧ (r.status ≠ 0#2 → r.rdata = 0#64)

/-- R92: a command that is refused, with either fault, leaves `IN`, `P`, `OUT` and `OCNT` as they were and
returns no data. -/
def Obligations.RefusedCommandWritesNothing : Prop :=
  ∀ (s t : State) (rest : List HostEvent) (w : U16) (wdata : U64) (r : Response),
    s.host = .command w wdata :: rest → step s = .next t → t.responses = s.responses ++ [r] →
    r.status ≠ 0#2 → SameBlock s t ∧ r.rdata = 0#64 ∧ t.host = rest

/-- R95: the block cannot hang or refuse to answer: whatever the host presents, any number of steps ends in a
next state. -/
def Obligations.NoNumberOfStepsStops : Prop :=
  ∀ (k : Nat) (s : State), ∃ t, Sys2Proof.core.run k s = .next t

/-! ### Faults -/

/-- R93, R59, R81: `OutOfRange` is raised by TIN, TOUT and INCB exactly when `c > 64`, and by RDO exactly when
`i >= OCNT`; the refused command does nothing but respond, and the others complete with status 0. -/
def Obligations.OutOfRangeIsRaisedExactlyWhenDue : Prop :=
  (∀ (c : U7) (s : State), 64 < c.toNat →
    exec (.tin c) s = .next { s with responses := s.responses ++ [⟨1#2, 0#64⟩] } ∧
    exec (.tout c) s = .next { s with responses := s.responses ++ [⟨1#2, 0#64⟩] } ∧
    exec (.incb c) s = .next { s with responses := s.responses ++ [⟨1#2, 0#64⟩] }) ∧
  (∀ (c : U7) (s : State), c.toNat ≤ 64 →
    (∃ t, exec (.tin c) s = .next t ∧ t.responses = s.responses ++ [⟨0#2, 0#64⟩]) ∧
    (∃ t, exec (.tout c) s = .next t ∧ t.responses = s.responses ++ [⟨0#2, 0#64⟩]) ∧
    (∃ t, exec (.incb c) s = .next t ∧ t.responses = s.responses ++ [⟨0#2, 0#64⟩])) ∧
  (∀ (i : U6) (s : State), s.OCNT.toNat ≤ i.toNat →
    exec (.rdo i) s = .next { s with responses := s.responses ++ [⟨1#2, 0#64⟩] }) ∧
  (∀ (i : U6) (s : State), i.toNat < s.OCNT.toNat →
    ∃ t r, exec (.rdo i) s = .next t ∧ t.responses = s.responses ++ [r] ∧ r.status = 0#2)

/-! ### Data movement -/

/-- R85: WRV writes `wdata[31:0]` to `IN[i]` and nothing else; its word is `0x1000 | i`. -/
def Obligations.WrvWritesOneInputLane : Prop :=
  ∀ (i : U6) (wdata : U64) (s : State),
    encodeWord (.wrv i wdata) = 0x1000#16 ||| i.setWidth 16 ∧
    ∃ t, exec (.wrv i wdata) s = .next t ∧
      (∀ k : Fin 64, t.IN[k] = if k.val = i.toNat then wdata.extractLsb' 0 32 else s.IN[k]) ∧
      t.P = s.P ∧ t.OUT = s.OUT ∧ t.OCNT = s.OCNT ∧ t.host = s.host ∧
      t.responses = s.responses ++ [⟨0#2, 0#64⟩]

/-- R86: RDV returns `IN[i]`, zero-extended, and writes nothing; its word is `0x2000 | i`. -/
def Obligations.RdvReturnsOneInputLane : Prop :=
  ∀ (i : U6) (s : State) (k : Fin 64), k.val = i.toNat →
    encodeWord (.rdv i) = 0x2000#16 ||| i.setWidth 16 ∧
    exec (.rdv i) s = .next { s with responses := s.responses ++ [⟨0#2, 0#32 ++ s.IN[k]⟩] }

/-- R87: WRP writes all of `wdata` to `P[n]` and nothing else; its word is `0x3000 | n`. -/
def Obligations.WrpWritesOnePlane : Prop :=
  ∀ (n : U5) (wdata : U64) (s : State),
    encodeWord (.wrp n wdata) = 0x3000#16 ||| n.setWidth 16 ∧
    ∃ t, exec (.wrp n wdata) s = .next t ∧
      (∀ k : Fin 32, t.P[k] = if k.val = n.toNat then wdata else s.P[k]) ∧
      t.IN = s.IN ∧ t.OUT = s.OUT ∧ t.OCNT = s.OCNT ∧ t.host = s.host ∧
      t.responses = s.responses ++ [⟨0#2, 0#64⟩]

/-- R88: RDP returns all 64 bits of `P[n]` and writes nothing; its word is `0x4000 | n`. -/
def Obligations.RdpReturnsOnePlane : Prop :=
  ∀ (n : U5) (s : State) (k : Fin 32), k.val = n.toNat →
    encodeWord (.rdp n) = 0x4000#16 ||| n.setWidth 16 ∧
    exec (.rdp n) s = .next { s with responses := s.responses ++ [⟨0#2, s.P[k]⟩] }

/-- R89: RDO returns `OUT[i]`, zero-extended, when `i < OCNT`; it is refused with `OutOfRange` and no data when
`i >= OCNT`; in either outcome nothing is written. Its word is `0x5000 | i`. -/
def Obligations.RdoReturnsADeliveredLane : Prop :=
  ∀ (i : U6) (s : State) (k : Fin 64), k.val = i.toNat →
    encodeWord (.rdo i) = 0x5000#16 ||| i.setWidth 16 ∧
    (i.toNat < s.OCNT.toNat →
      exec (.rdo i) s = .next { s with responses := s.responses ++ [⟨0#2, 0#32 ++ s.OUT[k]⟩] }) ∧
    (s.OCNT.toNat ≤ i.toNat →
      exec (.rdo i) s = .next { s with responses := s.responses ++ [⟨1#2, 0#64⟩] })

/-- R90: RDC returns `OCNT`, zero-extended, and writes nothing; its word is `0x6000`. -/
def Obligations.RdcReturnsTheCount : Prop :=
  ∀ s : State, encodeWord .rdc = 0x6000#16 ∧
    exec .rdc s = .next { s with responses := s.responses ++ [⟨0#2, 0#57 ++ s.OCNT⟩] }

/-- R48: commands that differ only in data bits their opcode ignores have the same step: all of `wdata` for
every opcode but WRV (1) and WRP (3), illegal words included; the upper half for WRV. -/
def Obligations.IgnoredDataBitsHaveNoEffect : Prop :=
  ∀ (s : State) (w : U16) (d d' : U64),
    (w.extractLsb' 12 4 ≠ 0x1#4 → w.extractLsb' 12 4 ≠ 0x3#4 →
      step (s.presentFirst (.command w d)) = step (s.presentFirst (.command w d'))) ∧
    (w.extractLsb' 12 4 = 0x1#4 → d.extractLsb' 0 32 = d'.extractLsb' 0 32 →
      step (s.presentFirst (.command w d)) = step (s.presentFirst (.command w d')))

/-- R36: a write is seen by the next read: RDV after WRV of the lane, RDP after WRP of the plane. -/
def Obligations.ReadAfterWriteSeesTheWrite : Prop :=
  (∀ (i : U6) (d : U64) (s : State), ∃ t u, exec (.wrv i d) s = .next t ∧ exec (.rdv i) t = .next u ∧
    u.responses = s.responses ++ [⟨0#2, 0#64⟩, ⟨0#2, 0#32 ++ d.extractLsb' 0 32⟩]) ∧
  (∀ (n : U5) (d : U64) (s : State), ∃ t u, exec (.wrp n d) s = .next t ∧ exec (.rdp n) t = .next u ∧
    u.responses = s.responses ++ [⟨0#2, 0#64⟩, ⟨0#2, d⟩])

/-! ### Transpose-In -/

/-- R56: after TIN `c` bit `i` of plane `n` is bit `n` of `IN[i]` for `i < c` and 0 for `i >= c`, that is
`P = Planes(IN, c)`; nothing else is written. Its word is `0x8000 | c`. -/
def Obligations.TinTransposesTheBatch : Prop :=
  ∀ (c : U7) (s : State), c.toNat ≤ 64 →
    encodeWord (.tin c) = 0x8000#16 ||| c.setWidth 16 ∧
    ∃ t, exec (.tin c) s = .next t ∧
      (∀ (n : Fin 32) (i : Fin 64),
        t.P[n].getLsbD i.val = if i.val < c.toNat then s.IN[i].getLsbD n.val else false) ∧
      t.P = planesOf s.IN c.toNat ∧
      t.IN = s.IN ∧ t.OUT = s.OUT ∧ t.OCNT = s.OCNT ∧ t.host = s.host ∧
      t.responses = s.responses ++ [⟨0#2, 0#64⟩]

/-- R57, R58: TIN `c` makes a fresh vector: what `P` held before, and the lanes of `IN` at or beyond `c`, have no
influence on `P` after it; a count of 0 gives 32 zero planes. -/
def Obligations.TinDependsOnTheFirstLanesOnly : Prop :=
  (∀ (c : U7) (s s' : State), c.toNat ≤ 64 → (∀ i : Fin 64, i.val < c.toNat → s.IN[i] = s'.IN[i]) →
    ∃ t t', exec (.tin c) s = .next t ∧ exec (.tin c) s' = .next t' ∧ t.P = t'.P ∧
      ∀ (n : Fin 32) (i : Fin 64), c.toNat ≤ i.val → t.P[n].getLsbD i.val = false) ∧
  (∀ s : State, ∃ t, exec (.tin 0#7) s = .next t ∧ ∀ n : Fin 32, t.P[n] = 0#64)

/-- R61: TIN loses nothing of the first `c` values: `LaneVal(P, i) = IN[i]` for every `i < c`. -/
def Obligations.TinKeepsEveryLaneValue : Prop :=
  ∀ (c : U7) (s : State), c.toNat ≤ 64 → ∃ t, exec (.tin c) s = .next t ∧
    ∀ i : Fin 64, i.val < c.toNat → laneVal t.P i.val = s.IN[i]

/-! ### Increment -/

/-- R15: `LaneVal(V, i)` as a number is the sum over the 32 planes of `V[n][i] * 2^n`. -/
def Obligations.LaneValueIsTheWeightedSum : Prop :=
  ∀ (V : PlaneArray) (i : Fin 64), (laneVal V i.val).toNat = laneSum V i.val 32

/-- R63: INC adds one, modulo 2^32, to the value of every one of the 64 lanes, and writes nothing but `P`. Its
word is `0x9000`. -/
def Obligations.IncAddsOneToEveryLane : Prop :=
  ∀ s : State, encodeWord .inc = 0x9000#16 ∧
    ∃ t, exec .inc s = .next t ∧
      (∀ i : Fin 64, (laneVal t.P i.val).toNat = ((laneVal s.P i.val).toNat + 1) % 2 ^ 32) ∧
      t.IN = s.IN ∧ t.OUT = s.OUT ∧ t.OCNT = s.OCNT ∧ t.host = s.host ∧
      t.responses = s.responses ++ [⟨0#2, 0#64⟩]

/-- The spec's own derivation R70: bit `n` of a lane flips exactly when all lower bits of that lane were 1; and the carry dropped after
plane 31 is 1 exactly for the lanes that held `2^32 - 1`. -/
def Obligations.IncFlipsABitWhenAllLowerBitsWereOne : Prop :=
  ∀ s : State, ∃ t, exec .inc s = .next t ∧
    (∀ (n : Fin 32) (i : Fin 64), t.P[n].getLsbD i.val =
      (s.P[n].getLsbD i.val ^^ decide (∀ m : Fin 32, m.val < n.val → s.P[m].getLsbD i.val = true))) ∧
    (∀ i : Fin 64, (laneVal t.P i.val).toNat = ((laneVal s.P i.val).toNat + 1) % 2 ^ 32) ∧
    (∀ i : Fin 64, (incLoop s.P 32).2.getLsbD i.val = true ↔ (laneVal s.P i.val).toNat = 2 ^ 32 - 1)

/-- R67: a lane that held `0xFFFFFFFF` holds 0 after INC, and that is no fault. -/
def Obligations.IncWrapsAFullLaneToZero : Prop :=
  ∀ (s : State) (i : Fin 64), laneVal s.P i.val = 0xFFFF_FFFF#32 →
    ∃ t, exec .inc s = .next t ∧ laneVal t.P i.val = 0x0000_0000#32 ∧
      t.responses = s.responses ++ [⟨0#2, 0#64⟩]

/-- The spec's own derivation R69: the value of a lane after INC depends on the value of that lane before and on nothing else. -/
def Obligations.IncTreatsLanesSeparately : Prop :=
  ∀ (s s' : State) (i : Fin 64), (∀ n : Fin 32, s.P[n].getLsbD i.val = s'.P[n].getLsbD i.val) →
    ∃ t t', exec .inc s = .next t ∧ exec .inc s' = .next t' ∧
      ∀ n : Fin 32, t.P[n].getLsbD i.val = t'.P[n].getLsbD i.val

/-- The spec's own derivation R71: INC can be repeated, whatever put the planes there: `k` successive INC commands add `k mod 2^32` to
every lane. -/
def Obligations.RepeatedIncAddsTheNumberOfTimes : Prop :=
  ∀ s : State, ∃ f : Nat → State, f 0 = s ∧ (∀ k, exec .inc (f k) = .next (f (k + 1))) ∧
    ∀ (k : Nat) (i : Fin 64), (laneVal (f k).P i.val).toNat = ((laneVal s.P i.val).toNat + k) % 2 ^ 32

/-- The spec's own derivation R68: after TIN `c` and INC an unused lane `i >= c` holds 1: bit `i` of `P[0]` is 1 and bit `i` of every other
plane is 0. -/
def Obligations.UnusedLanesHoldOneAfterTinAndInc : Prop :=
  ∀ (c : U7) (s : State), c.toNat ≤ 64 → ∃ t u, exec (.tin c) s = .next t ∧ exec .inc t = .next u ∧
    ∀ (i : Fin 64) (n : Fin 32), c.toNat ≤ i.val → u.P[n].getLsbD i.val = decide (n.val = 0)

/-! ### Transpose-Out -/

/-- R73: after TOUT `c` bit `n` of `OUT[i]` is bit `i` of plane `n` for `i < c`, that is `OUT[i] =
LaneVal(P, i)`; `OUT[i] = 0` for `i >= c`; `OCNT = c`; nothing else is written. Its word is `0xA000 | c`. -/
def Obligations.ToutTransposesBack : Prop :=
  ∀ (c : U7) (s : State), c.toNat ≤ 64 →
    encodeWord (.tout c) = 0xA000#16 ||| c.setWidth 16 ∧
    ∃ t, exec (.tout c) s = .next t ∧
      (∀ (i : Fin 64) (n : Fin 32), i.val < c.toNat → t.OUT[i].getLsbD n.val = s.P[n].getLsbD i.val) ∧
      (∀ i : Fin 64, i.val < c.toNat → t.OUT[i] = laneVal s.P i.val) ∧
      (∀ i : Fin 64, c.toNat ≤ i.val → t.OUT[i] = 0#32) ∧ t.OCNT = c ∧
      t.IN = s.IN ∧ t.P = s.P ∧ t.host = s.host ∧ t.responses = s.responses ++ [⟨0#2, 0#64⟩]

/-- R77: TIN `c` then TOUT `c` is the identity on the first `c` lanes, and `OCNT = c`. -/
def Obligations.TransposeRoundTripDeliversTheBatch : Prop :=
  ∀ (c : U7) (s : State), c.toNat ≤ 64 → ∃ t u, exec (.tin c) s = .next t ∧ exec (.tout c) t = .next u ∧
    u.OCNT = c ∧ ∀ i : Fin 64, i.val < c.toNat → u.OUT[i] = s.IN[i]

/-- The other direction of the round trip, which the spec derives under R77: for planes whose bits at or beyond
`c` are 0, TOUT `c`, a copy of `OUT[0..c-1]` into `IN`, and TIN `c` restore `P`. -/
def Obligations.TransposeRoundTripRestoresMaskedPlanes : Prop :=
  ∀ (c : U7) (s : State), c.toNat ≤ 64 →
    (∀ (n : Fin 32) (i : Fin 64), c.toNat ≤ i.val → s.P[n].getLsbD i.val = false) →
    ∃ t, exec (.tout c) s = .next t ∧
      ∀ u : State, (∀ i : Fin 64, i.val < c.toNat → u.IN[i] = t.OUT[i]) →
        ∃ v, exec (.tin c) u = .next v ∧ v.P = s.P

/-! ### The whole pipeline -/

/-- R79: INCB `c` is TIN `c`, INC and TOUT `c` on `IN`, `P`, `OUT` and `OCNT`, with one response; its word is
`0xB000 | c`. -/
def Obligations.IncbIsTheThreeStages : Prop :=
  ∀ (c : U7) (s : State), c.toNat ≤ 64 →
    encodeWord (.incb c) = 0xB000#16 ||| c.setWidth 16 ∧
    ∃ t₁ t₂ t₃ t, exec (.tin c) s = .next t₁ ∧ exec .inc t₁ = .next t₂ ∧ exec (.tout c) t₂ = .next t₃ ∧
      exec (.incb c) s = .next t ∧ SameBlock t₃ t ∧ t.IN = s.IN ∧ t.host = s.host ∧
      t.responses = s.responses ++ [⟨0#2, 0#64⟩]

/-- R80: after INCB `c`, `OCNT = c`, `OUT[i] = (IN[i] + 1) mod 2^32` for `i < c` and `OUT[i] = 0` for `i >= c`;
the same holds after `tin c; inc; tout c`. -/
def Obligations.IncbIncrementsTheBatch : Prop :=
  ∀ (c : U7) (s : State), c.toNat ≤ 64 →
    (∃ t, exec (.incb c) s = .next t ∧ t.OCNT = c ∧
      (∀ i : Fin 64, i.val < c.toNat → t.OUT[i].toNat = (s.IN[i].toNat + 1) % 2 ^ 32) ∧
      (∀ i : Fin 64, c.toNat ≤ i.val → t.OUT[i] = 0#32)) ∧
    (∃ t u v, exec (.tin c) s = .next t ∧ exec .inc t = .next u ∧ exec (.tout c) u = .next v ∧ v.OCNT = c ∧
      (∀ i : Fin 64, i.val < c.toNat → v.OUT[i].toNat = (s.IN[i].toNat + 1) % 2 ^ 32) ∧
      (∀ i : Fin 64, c.toNat ≤ i.val → v.OUT[i] = 0#32))

/-- The spec's own derivation R82: after INCB `c` the planes hold the incremented lanes, and 1 in every lane at or beyond `c`. -/
def Obligations.IncbLeavesTheIncrementedPlanes : Prop :=
  ∀ (c : U7) (s : State), c.toNat ≤ 64 → ∃ t, exec (.incb c) s = .next t ∧
    (∀ i : Fin 64, i.val < c.toNat → (laneVal t.P i.val).toNat = (s.IN[i].toNat + 1) % 2 ^ 32) ∧
    (∀ i : Fin 64, c.toNat ≤ i.val → laneVal t.P i.val = 1#32 ∧
      ∀ n : Fin 32, t.P[n].getLsbD i.val = decide (n.val = 0))

/-- R84: a second INCB with the same count leaves `OUT`, `OCNT` and `P` as the first did; and a lane INCB
delivers depends on that lane of `IN` alone. -/
def Obligations.IncbIsIdempotentAndLanewise : Prop :=
  (∀ (c : U7) (s : State), c.toNat ≤ 64 →
    ∃ t u, exec (.incb c) s = .next t ∧ exec (.incb c) t = .next u ∧ SameBlock t u) ∧
  (∀ (c : U7) (s s' : State) (j : Fin 64), c.toNat ≤ 64 → j.val < c.toNat → s.IN[j] = s'.IN[j] →
    ∃ t t', exec (.incb c) s = .next t ∧ exec (.incb c) s' = .next t' ∧ t.OUT[j] = t'.OUT[j])

/-- Idempotence of the transposes (`20_memory.md` R33, `42_transpose_out.md` R78, and the derivation marked under
`40_transpose_in.md` R60): a second TIN or TOUT with the same count changes none of the four elements. -/
def Obligations.TransposesAreIdempotent : Prop :=
  ∀ (c : U7) (s : State), c.toNat ≤ 64 →
    (∃ t u, exec (.tin c) s = .next t ∧ exec (.tin c) t = .next u ∧ SameBlock t u) ∧
    (∃ t u, exec (.tout c) s = .next t ∧ exec (.tout c) t = .next u ∧ SameBlock t u)

/-- The spec's own derivation R108: the two transposes may be given different counts: after `tin c1`, `k` INC commands and `tout c2` the
lanes below both counts hold `IN[i] + k`, and the lanes `c1 .. c2-1` hold `k`, both modulo 2^32. -/
def Obligations.DifferentCountsDeliverTheNumberOfIncrements : Prop :=
  ∀ (c₁ c₂ : U7) (s : State) (k : Nat), c₁.toNat ≤ 64 → c₂.toNat ≤ 64 →
    ∃ (f : Nat → State) (u : State), exec (.tin c₁) s = .next (f 0) ∧
      (∀ j, exec .inc (f j) = .next (f (j + 1))) ∧ exec (.tout c₂) (f k) = .next u ∧ u.OCNT = c₂ ∧
      (∀ i : Fin 64, i.val < c₂.toNat → i.val < c₁.toNat → u.OUT[i].toNat = (s.IN[i].toNat + k) % 2 ^ 32) ∧
      (∀ i : Fin 64, i.val < c₂.toNat → c₁.toNat ≤ i.val → u.OUT[i].toNat = k % 2 ^ 32)

/-! ### The machine as a whole -/

/-- R16, the column "written by": a command leaves every element it does not write bit for bit as it was, takes
no event, and adds one response. -/
def Obligations.CommandsWriteOnlyTheirElements : Prop :=
  ∀ (i : Instr) (s : State), ∃ t, exec i s = .next t ∧
    (writesIN i = false → t.IN = s.IN) ∧ (writesP i = false → t.P = s.P) ∧
    (writesOutput i = false → t.OUT = s.OUT ∧ t.OCNT = s.OCNT) ∧ t.host = s.host ∧
    ∃ r, t.responses = s.responses ++ [r]

/-- R17, R27: only a WRV or a reset changes `IN`; R19, R75, R81: only a TOUT or an INCB with a legal count, or a
reset, changes `OUT` or `OCNT`. -/
def Obligations.OnlyTheseStepsChangeInputOrOutput : Prop :=
  ∀ s t : State, step s = .next t →
    (t.IN ≠ s.IN → ∃ rest, s.host = .reset :: rest ∨
      ∃ w d k, s.host = .command w d :: rest ∧ decode w d = .ok (.wrv k d)) ∧
    ((t.OUT ≠ s.OUT ∨ t.OCNT ≠ s.OCNT) → ∃ rest, s.host = .reset :: rest ∨
      ∃ w d c, c.toNat ≤ 64 ∧ s.host = .command w d :: rest ∧
        (decode w d = .ok (.tout c) ∨ decode w d = .ok (.incb c)))

/-- R21: no result depends on history: in two states that agree on the elements a command reads, it gives the
same response, and when it completes TIN, INC and INCB leave the same `P`, TOUT and INCB the same `OUT` and
`OCNT`, WRV the same lane of `IN` and WRP the same plane. INCB is not counted among the readers of `P`, although
the table of R16 lists it there (log entry 14). -/
def Obligations.ResultsDependOnlyOnTheElementsRead : Prop :=
  ∀ (i : Instr) (s s' : State), (readsIN i = true → s.IN = s'.IN) → (readsP i = true → s.P = s'.P) →
    (readsOUT i = true → s.OUT = s'.OUT) → (readsOCNT i = true → s.OCNT = s'.OCNT) →
    ∃ t t' r, exec i s = .next t ∧ exec i s' = .next t' ∧
      t.responses = s.responses ++ [r] ∧ t'.responses = s'.responses ++ [r] ∧
      (r.status = 0#2 →
        ((∃ c, i = .tin c) ∨ i = .inc ∨ (∃ c, i = .incb c) → t.P = t'.P) ∧
        ((∃ c, i = .tout c ∨ i = .incb c) → t.OUT = t'.OUT ∧ t.OCNT = t'.OCNT) ∧
        (∀ k d, i = .wrv k d → t.IN[laneIndex k] = t'.IN[laneIndex k]) ∧
        (∀ n d, i = .wrp n d → t.P[planeIndex n] = t'.P[planeIndex n]))

/-- R19 at reset. -/
def Obligations.ResetStateIsLegal : Prop := LegalState State.reset

/-- R19: `OCNT` is always in 0..64 and the elements of `OUT` at or beyond it always hold 0: every step from a
legal state, of whatever event, gives a legal state. -/
def Obligations.EveryStepKeepsTheStateLegal : Prop :=
  ∀ s t : State, LegalState s → step s = .next t → LegalState t

/-- R9, R19, R41: a run of any events from a legal state with nothing pending ends in a legal state, with all
events taken, one response for every command and none for a reset, and no response of status 3. -/
def Obligations.EveryRunIsSafe : Prop :=
  ∀ (es : List HostEvent) (s : State), s.host = [] → LegalState s → ResponsesLegal s →
    ∃ t, run es s = .next t ∧ LegalState t ∧ ResponsesLegal t ∧ t.host = [] ∧
      t.responses.length = s.responses.length + es.countP isCommandEvent

/-- R36, R9: commands take effect one at a time in the order presented: running two lists of events one after
the other is running the second from where the first ended. -/
def Obligations.RunsComposeInOrder : Prop :=
  ∀ (es fs : List HostEvent) (s : State), s.host = [] →
    ∃ t u, run es s = .next t ∧ run fs t = .next u ∧ run (es ++ fs) s = .next u

/-! ### The assembler -/

/-- R53: the rows of its table, from the text of the line to `cmd` and `wdata`. -/
def Obligations.AssemblerTableRows : Prop :=
  assembleLine "wrv 0, 5".toList = .ok (some (0x1000#16, 0x0000000000000005#64)) ∧
  assembleLine "wrv 63, 0xFFFFFFFF".toList = .ok (some (0x103F#16, 0x00000000FFFFFFFF#64)) ∧
  assembleLine "rdv 1".toList = .ok (some (0x2001#16, 0#64)) ∧
  assembleLine "wrp 31, 0x8000000000000001".toList = .ok (some (0x301F#16, 0x8000000000000001#64)) ∧
  assembleLine "rdp 0".toList = .ok (some (0x4000#16, 0#64)) ∧
  assembleLine "rdo 2".toList = .ok (some (0x5002#16, 0#64)) ∧
  assembleLine "rdc".toList = .ok (some (0x6000#16, 0#64)) ∧
  assembleLine "tin 3".toList = .ok (some (0x8003#16, 0#64)) ∧
  assembleLine "tin 64".toList = .ok (some (0x8040#16, 0#64)) ∧
  assembleLine "tin 65".toList = .ok (some (0x8041#16, 0#64)) ∧
  assembleLine "inc".toList = .ok (some (0x9000#16, 0#64)) ∧
  assembleLine "tout 3".toList = .ok (some (0xA003#16, 0#64)) ∧
  assembleLine "incb 64".toList = .ok (some (0xB040#16, 0#64))

/-- R53, for statements whose operands are numbers already read: a statement whose operands lie in their fields
assembles to the word with those operands in it and to its data value (0 where the command has none), which are
the words of the decoded command; a statement with an operand is an assembly error exactly when an operand lies
outside its field; `rdc` and `inc`, which have no operand, always assemble. The reading of a line (numbers,
operand counts, mnemonics; log entry 10) is not part of this statement. -/
def Obligations.AssemblerRefusesOperandsOutsideTheirField : Prop :=
  (∀ i v n x c : Nat, i ≤ 63 → v < 2 ^ 32 → n ≤ 31 → x < 2 ^ 64 → c ≤ 127 →
    (AsmStmt.wrv i v).assemble = .ok (0x1000#16 ||| BitVec.ofNat 16 i, BitVec.ofNat 64 v) ∧
    (AsmStmt.rdv i).assemble = .ok (0x2000#16 ||| BitVec.ofNat 16 i, 0#64) ∧
    (AsmStmt.wrp n x).assemble = .ok (0x3000#16 ||| BitVec.ofNat 16 n, BitVec.ofNat 64 x) ∧
    (AsmStmt.rdp n).assemble = .ok (0x4000#16 ||| BitVec.ofNat 16 n, 0#64) ∧
    (AsmStmt.rdo i).assemble = .ok (0x5000#16 ||| BitVec.ofNat 16 i, 0#64) ∧
    (AsmStmt.tin c).assemble = .ok (0x8000#16 ||| BitVec.ofNat 16 c, 0#64) ∧
    (AsmStmt.tout c).assemble = .ok (0xA000#16 ||| BitVec.ofNat 16 c, 0#64) ∧
    (AsmStmt.incb c).assemble = .ok (0xB000#16 ||| BitVec.ofNat 16 c, 0#64) ∧
    decode (0x1000#16 ||| BitVec.ofNat 16 i) (BitVec.ofNat 64 v) =
      .ok (.wrv (BitVec.ofNat 6 i) (BitVec.ofNat 64 v)) ∧
    decode (0x2000#16 ||| BitVec.ofNat 16 i) 0#64 = .ok (.rdv (BitVec.ofNat 6 i)) ∧
    decode (0x3000#16 ||| BitVec.ofNat 16 n) (BitVec.ofNat 64 x) =
      .ok (.wrp (BitVec.ofNat 5 n) (BitVec.ofNat 64 x)) ∧
    decode (0x4000#16 ||| BitVec.ofNat 16 n) 0#64 = .ok (.rdp (BitVec.ofNat 5 n)) ∧
    decode (0x5000#16 ||| BitVec.ofNat 16 i) 0#64 = .ok (.rdo (BitVec.ofNat 6 i)) ∧
    decode (0x8000#16 ||| BitVec.ofNat 16 c) 0#64 = .ok (.tin (BitVec.ofNat 7 c)) ∧
    decode (0xA000#16 ||| BitVec.ofNat 16 c) 0#64 = .ok (.tout (BitVec.ofNat 7 c)) ∧
    decode (0xB000#16 ||| BitVec.ofNat 16 c) 0#64 = .ok (.incb (BitVec.ofNat 7 c))) ∧
  AsmStmt.rdc.assemble = .ok (0x6000#16, 0#64) ∧ AsmStmt.inc.assemble = .ok (0x9000#16, 0#64) ∧
  (∀ i v c : Nat,
    ((∃ e, (AsmStmt.wrv i v).assemble = .error e) ↔ 63 < i ∨ 2 ^ 32 ≤ v) ∧
    ((∃ e, (AsmStmt.rdv i).assemble = .error e) ↔ 63 < i) ∧
    ((∃ e, (AsmStmt.wrp i v).assemble = .error e) ↔ 31 < i ∨ 2 ^ 64 ≤ v) ∧
    ((∃ e, (AsmStmt.rdp i).assemble = .error e) ↔ 31 < i) ∧
    ((∃ e, (AsmStmt.rdo i).assemble = .error e) ↔ 63 < i) ∧
    ((∃ e, (AsmStmt.tin c).assemble = .error e) ↔ 127 < c) ∧
    ((∃ e, (AsmStmt.tout c).assemble = .error e) ↔ 127 < c) ∧
    ((∃ e, (AsmStmt.incb c).assemble = .error e) ↔ 127 < c)) ∧
  (∀ (a : AsmStmt) (w : U16) (d : U64), a.assemble = .ok (w, d) → ∃ k, a.instr = .ok k ∧ decode w d = .ok k)
end

