-- ==== Sys2Proof/Laws/Decode.lean ====
section
/-! SUPPORT. How the decoder is taken apart in a proof: a word is its three fields, a word with must-be-zero bits
set is no command, and the data word is only carried along. -/

namespace Sys2Proof

/-- R42: a word is `op`, `mbz` and `arg`, side by side. -/
theorem word_eq_fields (w : U16) : w = opField w ++ mbzField w ++ argField w := by
  unfold opField mbzField argField
  apply BitVec.eq_of_getLsbD_eq
  intro k hk
  rw [BitVec.getLsbD_append, BitVec.getLsbD_append]
  simp only [BitVec.getLsbD_extractLsb']
  by_cases h7 : k < 7
  · simp [h7]
  · by_cases h12 : k < 12
    · have e : 7 + (k - 7) = k := by omega
      have l : k - 7 < 5 := by omega
      simp [h7, l, e]
    · have e : 12 + (k - 7 - 5) = k := by omega
      have l : ¬ k - 7 < 5 := by omega
      have m : k - 7 - 5 < 4 := by omega
      simp [h7, l, m, e]

/-- A property of all words, from the words with must-be-zero bits set and the 2048 others. -/
theorem forall_word {p : U16 → Prop} (hm : ∀ w, mbzField w ≠ 0#5 → p w)
    (h0 : ∀ (op : U4) (arg : U7), p (op ++ 0#5 ++ arg)) (w : U16) : p w := by
  by_cases h : mbzField w = 0#5
  · rw [word_eq_fields w, h]
    exact h0 _ _
  · exact hm w h

theorem decode_mbz {w : U16} (h : mbzField w ≠ 0#5) (wdata : U64) : decode w wdata = .error .mbzNonZero := by
  simp [decode, h]

/-- R48: the data word takes no part in decoding; WRV and WRP carry it. -/
theorem decode_carries_data (w : U16) (wdata : U64) : decode w wdata =
    match decode w 0#64 with
    | .ok (.wrv k _) => .ok (.wrv k wdata)
    | .ok (.wrp n _) => .ok (.wrp n wdata)
    | x => x := by
  unfold decode
  dsimp only
  split
  · rfl
  · split <;> simp only [formL, formP, formN, formC] <;> (try split) <;> rfl

theorem isCommand_data (w : U16) (wdata : U64) : isCommand w wdata = isCommand w 0#64 := by
  unfold isCommand
  rw [decode_carries_data w wdata]
  cases decode w 0#64 with
  | error e => rfl
  | ok i => cases i <;> rfl

theorem isCommand_false_iff (w : U16) (wdata : U64) :
    isCommand w wdata = false ↔ ∃ e, decode w wdata = .error e := by
  unfold isCommand
  cases decode w wdata <;> simp

end Sys2Proof
end

