-- ==== Sys2Proof/Laws/Layout.lean ====
section
/-! SUPPORT. What the layout operations of Machine/Layout.lean do, bit by bit and element by element. -/

namespace Sys2Proof.Machine

theorem elem_eq_getElem {w n : Nat} (v : Vector (BitVec w) n) {k : Nat} (h : k < n) : elem v k = v[k] := by
  simp [elem, h]

@[simp] theorem elem_fin {w n : Nat} (v : Vector (BitVec w) n) (k : Fin n) : elem v k.val = v[k] :=
  elem_eq_getElem v k.isLt

theorem elem_beyond {w n : Nat} (v : Vector (BitVec w) n) {k : Nat} (h : n ≤ k) : elem v k = 0#w := by
  simp [elem, h]

/-- Read after write, of the same element and of another one. -/
theorem elem_put {w n : Nat} (v : Vector (BitVec w) n) (k j : Nat) (x : BitVec w) (hj : j < n) :
    elem (put v k x) j = if k = j then x else elem v j := by
  rw [elem_eq_getElem _ hj, elem_eq_getElem _ hj]
  simp [put, Vector.getElem_setIfInBounds]

theorem elem_ofFn {w n : Nat} (f : Fin n → BitVec w) {k : Nat} (h : k < n) :
    elem (Vector.ofFn f) k = f ⟨k, h⟩ := by
  simp [elem_eq_getElem _ h]

/-- Two arrays with the same elements are equal. -/
theorem array_ext {w n : Nat} {u v : Vector (BitVec w) n} (h : ∀ k : Fin n, u[k] = v[k]) : u = v := by
  ext1 k hk
  exact h ⟨k, hk⟩

/-- A bit of an OR loop is set when some iteration sets it. -/
theorem orLoop_getLsbD {w : Nat} (f : Nat → BitVec w) (m j : Nat) :
    (orLoop f m).getLsbD j = true ↔ ∃ k, k < m ∧ (f k).getLsbD j = true := by
  induction m with
  | zero => simp [orLoop]
  | succ m ih =>
    simp only [orLoop, BitVec.getLsbD_or, Bool.or_eq_true, ih]
    constructor
    · rintro (⟨k, hk, hb⟩ | hb)
      · exact ⟨k, by omega, hb⟩
      · exact ⟨m, by omega, hb⟩
    · rintro ⟨k, hk, hb⟩
      rcases Nat.lt_succ_iff_lt_or_eq.mp hk with h | rfl
      · exact .inl ⟨k, h, hb⟩
      · exact .inr hb

/-- Bit `j` of the word made from the bits `f`. -/
@[simp] theorem ofBits_getLsbD (f : Nat → Bool) (w j : Nat) :
    (ofBits f w).getLsbD j = (decide (j < w) && f j) := by
  induction w with
  | zero => simp [ofBits]
  | succ w ih =>
    rw [ofBits, BitVec.getLsbD_cons, ih]
    by_cases h : j = w
    · simp [h]
    · by_cases h' : j < w
      · simp [h, h', Nat.lt_succ_of_lt h']
      · have : ¬ j < w + 1 := by omega
        simp [h, h', this]

/-- R15: bit `n` of the value of lane `i` is bit `i` of plane `n`. -/
theorem laneVal_getLsbD (V : PlaneArray) (i : Nat) (n : Fin 32) : (laneVal V i).getLsbD n.val = V[n].getLsbD i := by
  rw [laneVal, ofBits_getLsbD, elem_fin, decide_eq_true n.isLt, Bool.true_and]

/-- R15: bit `i` of plane `n` of `Planes(S, c)`. -/
theorem planesOf_getLsbD (S : LaneArray) (c : Nat) (n : Fin 32) (i : Fin 64) :
    ((planesOf S c)[n]).getLsbD i.val = (decide (i.val < c) && S[i].getLsbD n.val) := by
  rw [planesOf, Fin.getElem_fin, Vector.getElem_ofFn, ofBits_getLsbD, elem_fin, decide_eq_true i.isLt,
    Bool.true_and]

end Sys2Proof.Machine
end

