-- ==== Sys2Proof/Laws/State.lean ====
section
/-! SUPPORT. One lemma per field per update of the state, each true by rfl, and the fields of the reset state. -/

namespace Sys2Proof.Machine

@[simp] theorem State.writeIN_IN (s : State) (k : Fin 64) (v : U32) :
    (s.writeIN k v).IN = s.IN.set k v := rfl
@[simp] theorem State.writeIN_P (s : State) (k : Fin 64) (v : U32) :
    (s.writeIN k v).P = s.P := rfl
@[simp] theorem State.writeIN_OUT (s : State) (k : Fin 64) (v : U32) :
    (s.writeIN k v).OUT = s.OUT := rfl
@[simp] theorem State.writeIN_OCNT (s : State) (k : Fin 64) (v : U32) :
    (s.writeIN k v).OCNT = s.OCNT := rfl
@[simp] theorem State.writeIN_host (s : State) (k : Fin 64) (v : U32) :
    (s.writeIN k v).host = s.host := rfl
@[simp] theorem State.writeIN_responses (s : State) (k : Fin 64) (v : U32) :
    (s.writeIN k v).responses = s.responses := rfl

@[simp] theorem State.writeP_IN (s : State) (k : Fin 32) (v : U64) :
    (s.writeP k v).IN = s.IN := rfl
@[simp] theorem State.writeP_P (s : State) (k : Fin 32) (v : U64) :
    (s.writeP k v).P = s.P.set k v := rfl
@[simp] theorem State.writeP_OUT (s : State) (k : Fin 32) (v : U64) :
    (s.writeP k v).OUT = s.OUT := rfl
@[simp] theorem State.writeP_OCNT (s : State) (k : Fin 32) (v : U64) :
    (s.writeP k v).OCNT = s.OCNT := rfl
@[simp] theorem State.writeP_host (s : State) (k : Fin 32) (v : U64) :
    (s.writeP k v).host = s.host := rfl
@[simp] theorem State.writeP_responses (s : State) (k : Fin 32) (v : U64) :
    (s.writeP k v).responses = s.responses := rfl

@[simp] theorem State.setPlanes_IN (s : State) (p : PlaneArray) :
    (s.setPlanes p).IN = s.IN := rfl
@[simp] theorem State.setPlanes_P (s : State) (p : PlaneArray) :
    (s.setPlanes p).P = p := rfl
@[simp] theorem State.setPlanes_OUT (s : State) (p : PlaneArray) :
    (s.setPlanes p).OUT = s.OUT := rfl
@[simp] theorem State.setPlanes_OCNT (s : State) (p : PlaneArray) :
    (s.setPlanes p).OCNT = s.OCNT := rfl
@[simp] theorem State.setPlanes_host (s : State) (p : PlaneArray) :
    (s.setPlanes p).host = s.host := rfl
@[simp] theorem State.setPlanes_responses (s : State) (p : PlaneArray) :
    (s.setPlanes p).responses = s.responses := rfl

@[simp] theorem State.setOutput_IN (s : State) (out : LaneArray) (cnt : U7) :
    (s.setOutput out cnt).IN = s.IN := rfl
@[simp] theorem State.setOutput_P (s : State) (out : LaneArray) (cnt : U7) :
    (s.setOutput out cnt).P = s.P := rfl
@[simp] theorem State.setOutput_OUT (s : State) (out : LaneArray) (cnt : U7) :
    (s.setOutput out cnt).OUT = out := rfl
@[simp] theorem State.setOutput_OCNT (s : State) (out : LaneArray) (cnt : U7) :
    (s.setOutput out cnt).OCNT = cnt := rfl
@[simp] theorem State.setOutput_host (s : State) (out : LaneArray) (cnt : U7) :
    (s.setOutput out cnt).host = s.host := rfl
@[simp] theorem State.setOutput_responses (s : State) (out : LaneArray) (cnt : U7) :
    (s.setOutput out cnt).responses = s.responses := rfl

@[simp] theorem State.pushResponse_IN (s : State) (r : Response) :
    (s.pushResponse r).IN = s.IN := rfl
@[simp] theorem State.pushResponse_P (s : State) (r : Response) :
    (s.pushResponse r).P = s.P := rfl
@[simp] theorem State.pushResponse_OUT (s : State) (r : Response) :
    (s.pushResponse r).OUT = s.OUT := rfl
@[simp] theorem State.pushResponse_OCNT (s : State) (r : Response) :
    (s.pushResponse r).OCNT = s.OCNT := rfl
@[simp] theorem State.pushResponse_host (s : State) (r : Response) :
    (s.pushResponse r).host = s.host := rfl
@[simp] theorem State.pushResponse_responses (s : State) (r : Response) :
    (s.pushResponse r).responses = s.responses ++ [r] := rfl

@[simp] theorem State.takeEvent_IN (s : State) (rest : List HostEvent) :
    (s.takeEvent rest).IN = s.IN := rfl
@[simp] theorem State.takeEvent_P (s : State) (rest : List HostEvent) :
    (s.takeEvent rest).P = s.P := rfl
@[simp] theorem State.takeEvent_OUT (s : State) (rest : List HostEvent) :
    (s.takeEvent rest).OUT = s.OUT := rfl
@[simp] theorem State.takeEvent_OCNT (s : State) (rest : List HostEvent) :
    (s.takeEvent rest).OCNT = s.OCNT := rfl
@[simp] theorem State.takeEvent_host (s : State) (rest : List HostEvent) :
    (s.takeEvent rest).host = rest := rfl
@[simp] theorem State.takeEvent_responses (s : State) (rest : List HostEvent) :
    (s.takeEvent rest).responses = s.responses := rfl

@[simp] theorem State.clearBlock_IN (s : State) :
    (s.clearBlock).IN = Vector.replicate 64 0x0000_0000#32 := rfl
@[simp] theorem State.clearBlock_P (s : State) :
    (s.clearBlock).P = Vector.replicate 32 0x0000_0000_0000_0000#64 := rfl
@[simp] theorem State.clearBlock_OUT (s : State) :
    (s.clearBlock).OUT = Vector.replicate 64 0x0000_0000#32 := rfl
@[simp] theorem State.clearBlock_OCNT (s : State) :
    (s.clearBlock).OCNT = 0#7 := rfl
@[simp] theorem State.clearBlock_host (s : State) :
    (s.clearBlock).host = s.host := rfl
@[simp] theorem State.clearBlock_responses (s : State) :
    (s.clearBlock).responses = s.responses := rfl

@[simp] theorem State.presentFirst_IN (s : State) (e : HostEvent) :
    (s.presentFirst e).IN = s.IN := rfl
@[simp] theorem State.presentFirst_P (s : State) (e : HostEvent) :
    (s.presentFirst e).P = s.P := rfl
@[simp] theorem State.presentFirst_OUT (s : State) (e : HostEvent) :
    (s.presentFirst e).OUT = s.OUT := rfl
@[simp] theorem State.presentFirst_OCNT (s : State) (e : HostEvent) :
    (s.presentFirst e).OCNT = s.OCNT := rfl
@[simp] theorem State.presentFirst_host (s : State) (e : HostEvent) :
    (s.presentFirst e).host = e :: s.host := rfl
@[simp] theorem State.presentFirst_responses (s : State) (e : HostEvent) :
    (s.presentFirst e).responses = s.responses := rfl

@[simp] theorem State.present_IN (s : State) (es : List HostEvent) :
    (s.present es).IN = s.IN := rfl
@[simp] theorem State.present_P (s : State) (es : List HostEvent) :
    (s.present es).P = s.P := rfl
@[simp] theorem State.present_OUT (s : State) (es : List HostEvent) :
    (s.present es).OUT = s.OUT := rfl
@[simp] theorem State.present_OCNT (s : State) (es : List HostEvent) :
    (s.present es).OCNT = s.OCNT := rfl
@[simp] theorem State.present_host (s : State) (es : List HostEvent) :
    (s.present es).host = s.host ++ es := rfl
@[simp] theorem State.present_responses (s : State) (es : List HostEvent) :
    (s.present es).responses = s.responses := rfl

@[simp] theorem State.reset_IN : State.reset.IN = Vector.replicate 64 0x0000_0000#32 := rfl
@[simp] theorem State.reset_P : State.reset.P = Vector.replicate 32 0x0000_0000_0000_0000#64 := rfl
@[simp] theorem State.reset_OUT : State.reset.OUT = Vector.replicate 64 0x0000_0000#32 := rfl
@[simp] theorem State.reset_OCNT : State.reset.OCNT = 0#7 := rfl
@[simp] theorem State.reset_host : State.reset.host = [] := rfl
@[simp] theorem State.reset_responses : State.reset.responses = [] := rfl

@[simp] theorem State.setPlanes_setPlanes (s : State) (p q : PlaneArray) :
    (s.setPlanes p).setPlanes q = s.setPlanes q := rfl
@[simp] theorem State.present_setPlanes (s : State) (es : List HostEvent) (p : PlaneArray) :
    (s.present es).setPlanes p = (s.setPlanes p).present es := rfl
@[simp] theorem State.present_setOutput (s : State) (es : List HostEvent) (out : LaneArray) (cnt : U7) :
    (s.present es).setOutput out cnt = (s.setOutput out cnt).present es := rfl
@[simp] theorem State.present_pushResponse (s : State) (es : List HostEvent) (r : Response) :
    (s.present es).pushResponse r = (s.pushResponse r).present es := rfl
@[simp] theorem State.takeEvent_presentFirst (s : State) (e : HostEvent) :
    (s.presentFirst e).takeEvent s.host = s := rfl

end Sys2Proof.Machine
end

