-- ==== Sys2Proof/Laws/Ops.lean ====
section
/-! SUPPORT. What each shared operation can do, said once: operand assembly, the two ways a command ends, the
count check, the reset event, the idle block, and the fetch of the host's next event. -/

namespace Sys2Proof.Machine

theorem countLegal_iff (c : U7) : countLegal c = true ↔ c.toNat ≤ 64 := by simp [countLegal]

theorem countLegal_false_iff (c : U7) : countLegal c = false ↔ 64 < c.toNat := by simp [countLegal]

theorem laneDelivered_iff (i : U6) (ocnt : U7) : laneDelivered i ocnt = true ↔ i.toNat < ocnt.toNat := by
  simp [laneDelivered]

theorem laneDelivered_false_iff (i : U6) (ocnt : U7) : laneDelivered i ocnt = false ↔ ocnt.toNat ≤ i.toNat := by
  simp [laneDelivered]

@[simp] theorem laneIndex_val (i : U6) : (laneIndex i).val = i.toNat := rfl

@[simp] theorem planeIndex_val (n : U5) : (planeIndex n).val = n.toNat := rfl

/-- A command that completes: one response more, status 0. -/
theorem respond_eq (rdata : U64) (s : State) : respond rdata s = .next (s.pushResponse ⟨0#2, rdata⟩) := rfl

/-- A fault: one response more, with the code of the cause and no data; nothing else changes. -/
theorem raise_eq (cause : Cause) (s : State) : raise cause s = .next (s.pushResponse ⟨cause.status.code, 0#64⟩) := rfl

theorem withCount_legal {c : U7} (h : c.toNat ≤ 64) (body : State → State) (s : State) :
    withCount c body s = .next ((body s).pushResponse ⟨0#2, 0#64⟩) := by
  simp [withCount, (countLegal_iff c).mpr h, respond_eq]

theorem withCount_refused {c : U7} (h : 64 < c.toNat) (body : State → State) (s : State) :
    withCount c body s = .next (s.pushResponse ⟨1#2, 0#64⟩) := by
  simp [withCount, (countLegal_false_iff c).mpr h, raise_eq, Cause.status, Status.code]

theorem fetch_idle {s : State} (h : s.host = []) : fetch s = .idle := by simp [fetch, h]

theorem fetch_reset {s : State} {rest : List HostEvent} (h : s.host = .reset :: rest) :
    fetch s = .reset (s.takeEvent rest) := by simp [fetch, h]

theorem fetch_command {s : State} {rest : List HostEvent} {cmd : U16} {wdata : U64} {i : Instr}
    (h : s.host = .command cmd wdata :: rest) (hd : decode cmd wdata = .ok i) :
    fetch s = .command i (s.takeEvent rest) := by simp [fetch, h, hd]

theorem fetch_illegal {s : State} {rest : List HostEvent} {cmd : U16} {wdata : U64} {e : Illegal}
    (h : s.host = .command cmd wdata :: rest) (hd : decode cmd wdata = .error e) :
    fetch s = .illegal cmd (s.takeEvent rest) := by simp [fetch, h, hd]

end Sys2Proof.Machine
end

