-- ==== Sys2Proof/Laws/Exec.lean ====
section
/-! SUPPORT. What `exec` answers, command by command, as one state written with the named updates; and the one
inversion lemma that says everything a command can do. -/

namespace Sys2Proof.Machine

theorem exec_wrv (i : U6) (wdata : U64) (s : State) : exec (.wrv i wdata) s =
    .next ((s.writeIN (laneIndex i) (laneData wdata)).pushResponse ⟨0#2, 0#64⟩) := rfl

theorem exec_rdv (i : U6) (s : State) : exec (.rdv i) s =
    .next (s.pushResponse ⟨0#2, laneRead s.IN[laneIndex i]⟩) := rfl

theorem exec_wrp (n : U5) (wdata : U64) (s : State) : exec (.wrp n wdata) s =
    .next ((s.writeP (planeIndex n) (planeData wdata)).pushResponse ⟨0#2, 0#64⟩) := rfl

theorem exec_rdp (n : U5) (s : State) : exec (.rdp n) s =
    .next (s.pushResponse ⟨0#2, planeRead s.P[planeIndex n]⟩) := rfl

theorem exec_rdo_delivered {i : U6} {s : State} (h : i.toNat < s.OCNT.toNat) : exec (.rdo i) s =
    .next (s.pushResponse ⟨0#2, laneRead s.OUT[laneIndex i]⟩) := by
  simp [exec, execRdo, (laneDelivered_iff i s.OCNT).mpr h, respond_eq]

theorem exec_rdo_refused {i : U6} {s : State} (h : s.OCNT.toNat ≤ i.toNat) : exec (.rdo i) s =
    .next (s.pushResponse ⟨1#2, 0#64⟩) := by
  simp [exec, execRdo, (laneDelivered_false_iff i s.OCNT).mpr h, raise_eq, Cause.status, Status.code]

theorem exec_rdc (s : State) : exec .rdc s = .next (s.pushResponse ⟨0#2, countRead s.OCNT⟩) := rfl

theorem exec_tin {c : U7} (h : c.toNat ≤ 64) (s : State) : exec (.tin c) s =
    .next ((s.setPlanes (tinPlanes s.IN c.toNat)).pushResponse ⟨0#2, 0#64⟩) := withCount_legal h (tinBody c) s

theorem exec_inc (s : State) : exec .inc s =
    .next ((s.setPlanes (incPlanes s.P)).pushResponse ⟨0#2, 0#64⟩) := rfl

theorem exec_tout {c : U7} (h : c.toNat ≤ 64) (s : State) : exec (.tout c) s =
    .next ((s.setOutput (toutLanes s.P c.toNat) c).pushResponse ⟨0#2, 0#64⟩) := withCount_legal h (toutBody c) s

/-- What INCB leaves, element by element. -/
theorem incbBody_eq (c : U7) (s : State) : incbBody c s =
    (s.setPlanes (incPlanes (tinPlanes s.IN c.toNat))).setOutput
      (toutLanes (incPlanes (tinPlanes s.IN c.toNat)) c.toNat) c := by
  simp only [incbBody, toutBody, incBody, tinBody, State.setPlanes_P, State.setPlanes_setPlanes]

theorem exec_incb {c : U7} (h : c.toNat ≤ 64) (s : State) : exec (.incb c) s =
    .next (((s.setPlanes (incPlanes (tinPlanes s.IN c.toNat))).setOutput
      (toutLanes (incPlanes (tinPlanes s.IN c.toNat)) c.toNat) c).pushResponse ⟨0#2, 0#64⟩) := by
  rw [← incbBody_eq]
  exact withCount_legal h (incbBody c) s

theorem exec_tin_refused {c : U7} (h : 64 < c.toNat) (s : State) :
    exec (.tin c) s = .next (s.pushResponse ⟨1#2, 0#64⟩) := withCount_refused h (tinBody c) s

theorem exec_tout_refused {c : U7} (h : 64 < c.toNat) (s : State) :
    exec (.tout c) s = .next (s.pushResponse ⟨1#2, 0#64⟩) := withCount_refused h (toutBody c) s

theorem exec_incb_refused {c : U7} (h : 64 < c.toNat) (s : State) :
    exec (.incb c) s = .next (s.pushResponse ⟨1#2, 0#64⟩) := withCount_refused h (incbBody c) s

/-- Everything a command can do: a read or a refusal changes only the responses; WRV writes one lane of `IN`;
WRP writes one plane; TIN and INC write all planes; TOUT writes the output; INCB writes planes and output. -/
theorem exec_cases (i : Instr) (s : State) :
    (∃ rdata, exec i s = .next (s.pushResponse ⟨0#2, rdata⟩)) ∨
    exec i s = .next (s.pushResponse ⟨1#2, 0#64⟩) ∨
    (∃ k d, i = .wrv k d ∧ exec i s = .next ((s.writeIN (laneIndex k) (laneData d)).pushResponse ⟨0#2, 0#64⟩)) ∨
    (∃ n d, i = .wrp n d ∧ exec i s = .next ((s.writeP (planeIndex n) (planeData d)).pushResponse ⟨0#2, 0#64⟩)) ∨
    (∃ p, ((∃ c, i = .tin c) ∨ i = .inc) ∧ exec i s = .next ((s.setPlanes p).pushResponse ⟨0#2, 0#64⟩)) ∨
    (∃ c, i = .tout c ∧ c.toNat ≤ 64 ∧
      exec i s = .next ((s.setOutput (toutLanes s.P c.toNat) c).pushResponse ⟨0#2, 0#64⟩)) ∨
    (∃ c p, i = .incb c ∧ c.toNat ≤ 64 ∧
      exec i s = .next (((s.setPlanes p).setOutput (toutLanes p c.toNat) c).pushResponse ⟨0#2, 0#64⟩)) := by
  cases i with
  | wrv k d => exact .inr (.inr (.inl ⟨k, d, rfl, exec_wrv k d s⟩))
  | rdv k => exact .inl ⟨_, exec_rdv k s⟩
  | wrp n d => exact .inr (.inr (.inr (.inl ⟨n, d, rfl, exec_wrp n d s⟩)))
  | rdp n => exact .inl ⟨_, exec_rdp n s⟩
  | rdo k =>
    rcases Nat.lt_or_ge k.toNat s.OCNT.toNat with h | h
    · exact .inl ⟨_, exec_rdo_delivered h⟩
    · exact .inr (.inl (exec_rdo_refused h))
  | rdc => exact .inl ⟨_, exec_rdc s⟩
  | tin c =>
    rcases Nat.lt_or_ge 64 c.toNat with h | h
    · exact .inr (.inl (exec_tin_refused h s))
    · exact .inr (.inr (.inr (.inr (.inl ⟨_, .inl ⟨c, rfl⟩, exec_tin h s⟩))))
  | inc => exact .inr (.inr (.inr (.inr (.inl ⟨_, .inr rfl, exec_inc s⟩))))
  | tout c =>
    rcases Nat.lt_or_ge 64 c.toNat with h | h
    · exact .inr (.inl (exec_tout_refused h s))
    · exact .inr (.inr (.inr (.inr (.inr (.inl ⟨c, rfl, h, exec_tout h s⟩)))))
  | incb c =>
    rcases Nat.lt_or_ge 64 c.toNat with h | h
    · exact .inr (.inl (exec_incb_refused h s))
    · exact .inr (.inr (.inr (.inr (.inr (.inr ⟨c, _, rfl, h, exec_incb h s⟩)))))

end Sys2Proof.Machine
end

