-- ==== Sys2Proof/Laws/PerInstr.lean ====
section
/-! SUPPORT. A law about every command as syntax, one lemma per constructor (LAWS.json). -/

namespace Sys2Proof.Laws.EncodedFields

open Sys2Proof

/-- R42, R44: the encoded word carries the command's opcode in bits 15 to 12 and zero in bits 11 to 7. -/
def Statement (i : Instr) : Prop :=
  opField (encodeWord i) = i.opcode ∧ mbzField (encodeWord i) = 0#5

theorem wrv (i : U6) (wdata : U64) : Statement (.wrv i wdata) := by
  refine ⟨?_, ?_⟩ <;> revert i <;> simp only [encodeWord, Instr.opcode] <;> decide
theorem rdv (i : U6) : Statement (.rdv i) := by revert i; unfold Statement; decide
theorem wrp (n : U5) (wdata : U64) : Statement (.wrp n wdata) := by
  refine ⟨?_, ?_⟩ <;> revert n <;> simp only [encodeWord, Instr.opcode] <;> decide
theorem rdp (n : U5) : Statement (.rdp n) := by revert n; unfold Statement; decide
theorem rdo (i : U6) : Statement (.rdo i) := by revert i; unfold Statement; decide
theorem rdc : Statement .rdc := by unfold Statement; decide
theorem tin (c : U7) : Statement (.tin c) := by revert c; unfold Statement; decide
theorem inc : Statement .inc := by unfold Statement; decide
theorem tout (c : U7) : Statement (.tout c) := by revert c; unfold Statement; decide
theorem incb (c : U7) : Statement (.incb c) := by revert c; unfold Statement; decide

end Sys2Proof.Laws.EncodedFields
end

