-- ==== Sys2Proof/Laws/Stages.lean ====
section
/-! SUPPORT. One step of each loop of the three stages, bit by bit. -/

namespace Sys2Proof.Machine

/-- The pair `(i, n)` of TIN reaches bit `i` of plane `n` and no other bit (R62). -/
theorem tinBit_getLsbD (IN : LaneArray) (n : Fin 32) (i j : Nat) :
    (tinBit IN n.val i).getLsbD j = (decide (j = i) && decide (i < 64) && (elem IN i).getLsbD n.val) := by
  unfold tinBit
  rw [BitVec.getLsbD_shiftLeft, BitVec.getLsbD_setWidth, BitVec.getLsbD_and, BitVec.getLsbD_ushiftRight,
    BitVec.getLsbD_one]
  rcases Nat.lt_trichotomy j i with h | rfl | h
  · have : ¬ j = i := by omega
    simp [h, this]
  · by_cases hj : j < 64 <;> simp [hj]
  · have h1 : ¬ j = i := by omega
    have h2 : ¬ j - i = 0 := by omega
    simp [h1, h2]

/-- The pair `(i, n)` of TOUT reaches bit `n` of the value of lane `i` and no other bit (R76). -/
theorem toutBit_getLsbD (P : PlaneArray) (i n j : Nat) :
    (toutBit P i n).getLsbD j = (decide (j = n) && decide (n < 32) && (elem P n).getLsbD i) := by
  unfold toutBit
  rw [BitVec.getLsbD_shiftLeft, BitVec.getLsbD_setWidth, BitVec.getLsbD_setWidth, BitVec.getLsbD_and,
    BitVec.getLsbD_ushiftRight, BitVec.getLsbD_one]
  rcases Nat.lt_trichotomy j n with h | rfl | h
  · have : ¬ j = n := by omega
    simp [h, this]
  · by_cases hj : j < 32 <;> simp [hj]
  · have h1 : ¬ j = n := by omega
    have h2 : ¬ j - n = 0 := by omega
    simp [h1, h2]

/-- The half-adder on one plane: sum into the plane, carry onwards, every other plane as before (R64). -/
theorem incStep_planes (r : PlaneArray × U64) (n k : Nat) (hk : k < 32) :
    elem (incStep r n).1 k = if n = k then elem r.1 n ^^^ r.2 else elem r.1 k :=
  elem_put r.1 n k _ hk

theorem incStep_carry (r : PlaneArray × U64) (n : Nat) : (incStep r n).2 = elem r.1 n &&& r.2 := rfl

/-- Planes the loop has not reached are as before. -/
theorem incLoop_later (p : PlaneArray) (m k : Nat) (hk : k < 32) (h : m ≤ k) :
    elem (incLoop p m).1 k = elem p k := by
  induction m with
  | zero => rfl
  | succ m ih =>
    rw [incLoop, incStep_planes _ _ _ hk, if_neg (by omega), ih (by omega)]

end Sys2Proof.Machine
end

