-- ==== Sys2Proof/Tests/Slice0.lean ====
section
/-! SUPPORT. Tests of the model. Every expected value is the spec's: the word tables of `30_encoding.md` R53, and
the vectors of `95_test_vectors.md` (named V<n> below) or a worked example of a command's rule. Then one witness
for every obligation that has hypotheses. -/

namespace Sys2Proof.Tests

open Sys2Proof Sys2Proof.Machine Sys2Proof.Safety

/-! ### Decoding: words written out from the spec's encodings -/

theorem test_decode_wrv : decode 0b0001_00000_0_111111#16 5#64 = .ok (.wrv 63#6 5#64) := by decide
theorem test_decode_rdv : decode 0b0010_00000_0_000001#16 9#64 = .ok (.rdv 1#6) := by decide
theorem test_decode_wrp : decode 0b0011_00000_00_11111#16 7#64 = .ok (.wrp 31#5 7#64) := by decide
theorem test_decode_rdp : decode 0b0100_00000_00_00010#16 0#64 = .ok (.rdp 2#5) := by decide
theorem test_decode_rdo : decode 0b0101_00000_0_000010#16 0#64 = .ok (.rdo 2#6) := by decide
theorem test_decode_rdc : decode 0b0110_00000_0000000#16 0#64 = .ok .rdc := by decide
theorem test_decode_tin : decode 0b1000_00000_1000001#16 0#64 = .ok (.tin 65#7) := by decide
theorem test_decode_inc : decode 0b1001_00000_0000000#16 0#64 = .ok .inc := by decide
theorem test_decode_tout : decode 0b1010_00000_0000011#16 0#64 = .ok (.tout 3#7) := by decide
theorem test_decode_incb : decode 0b1011_00000_1000000#16 0#64 = .ok (.incb 64#7) := by decide
/-- V20: the illegal rows. -/
theorem test_decode_illegal_rows :
    [0x0000#16, 0x1040#16, 0x1080#16, 0x3020#16, 0x4040#16, 0x6001#16].map (fun w => isCommand w 0#64) ++
    [0x7000#16, 0x8080#16, 0x8841#16, 0x9001#16, 0xC000#16, 0xFFFF#16].map (fun w => isCommand w 0#64) =
    List.replicate 12 false := by decide
/-- R53: the words of the table, encoded. -/
theorem test_encode_table :
    [Instr.wrv 63#6 0xFFFFFFFF#64, .wrp 31#5 1#64, .tin 65#7, .incb 64#7].map encodeWord =
    [0x103F#16, 0x301F#16, 0x8041#16, 0xB040#16] := by decide
theorem test_table_word_decodes : decodeTableWord 16 0xA003 = some (.tout 3#7) := by decide
theorem test_table_word_refused : decodeTableWord 16 0x9001 = none := by decide

/-! ### WellFormed: an ill-formed word for each check -/

theorem test_wf_accepts : [0x1000#16, 0x301F#16, 0x6000#16, 0x807F#16, 0x9000#16].map wordWellFormed =
    List.replicate 5 true := by decide
theorem test_wf_refuses_unassigned_opcode :
    opcodeAssigned 0x7000#16 = false ∧ wordWellFormed 0x7000#16 = false := by decide
theorem test_wf_refuses_mbz : mbzClear 0x1080#16 = false ∧ wordWellFormed 0x1080#16 = false := by decide
theorem test_wf_refuses_operand_of_format_n :
    noOperandClear 0x6001#16 = false ∧ wordWellFormed 0x6001#16 = false := by decide
theorem test_wf_refuses_bit_6_of_format_l :
    laneUnusedClear 0x1040#16 = false ∧ wordWellFormed 0x1040#16 = false := by decide
theorem test_wf_refuses_bit_5_of_format_p :
    planeUnusedClear 0x3020#16 = false ∧ wordWellFormed 0x3020#16 = false := by decide

/-! ### The commands, one step each -/

/-- The batch `[5, 0xFFFFFFFF, 100]` of S5, with a non-zero lane 3 beyond it. -/
def batch : LaneArray := (((State.reset.IN.set 0 5#32).set 1 0xFFFFFFFF#32).set 2 100#32).set 3 0xDEADBEEF#32
/-- A state with that batch. -/
def sBatch : State := { State.reset with IN := batch }
/-- The planes of V1. -/
def planesV1 : PlaneArray :=
  (((((Vector.replicate 32 2#64).set 0 3#64).set 2 7#64).set 5 6#64).set 6 6#64)
/-- A state with the planes of V1. -/
def sPlanes : State := { State.reset with P := planesV1 }
/-- A state with an OutputBatch of three lanes. -/
def sOut : State := { State.reset with OUT := State.reset.OUT.set 2 0x65#32, OCNT := 3#7 }

/-- What a test looks at in the state a step answers. -/
def after {α : Type} (r : Host.Outcome State Fault Refusal) (look : State → α) : Option α :=
  match r with
  | .next t => some (look t)
  | .fault _ => none
  | .refused _ => none

/-- V19: the upper half of `wdata` is ignored. -/
theorem test_wrv : after (exec (.wrv 5#6 0xFFFFFFFF00000001#64) State.reset) (fun t => (t.IN[5], t.responses)) =
    some (1#32, [⟨0#2, 0#64⟩]) := by decide
/-- R86: the worked example, one lane of a batch, zero-extended. -/
theorem test_rdv : after (exec (.rdv 1#6) sBatch) (fun t => t.responses) =
    some [⟨0#2, 0x00000000FFFFFFFF#64⟩] := by decide
/-- V19: all 64 bits are written, and plane 30 is not. -/
theorem test_wrp : after (exec (.wrp 31#5 0x8000000000000001#64) sPlanes) (fun t => (t.P[31], t.P[30])) =
    some (0x8000000000000001#64, 2#64) := by decide
/-- R88: the worked example. -/
theorem test_rdp : after (exec (.rdp 2#5) sPlanes) (fun t => t.responses) = some [⟨0#2, 7#64⟩] := by decide
/-- V19: the last lane of the OutputBatch. -/
theorem test_rdo_last : after (exec (.rdo 2#6) sOut) (fun t => t.responses) = some [⟨0#2, 0x65#64⟩] := by decide
/-- V19: the lane at `OCNT` is refused. -/
theorem test_rdo_beyond : after (exec (.rdo 3#6) sOut) (fun t => t.responses) = some [⟨1#2, 0#64⟩] := by decide
/-- R90: the worked example. -/
theorem test_rdc : after (exec .rdc sOut) (fun t => t.responses) = some [⟨0#2, 3#64⟩] := by decide
/-- V1: all 32 planes; lane 3 is masked. -/
theorem test_tin : after (exec (.tin 3#7) sBatch) (fun t => t.P) = some planesV1 := by decide +kernel
/-- V7: a count of 65 is refused. -/
theorem test_tin_65 : after (exec (.tin 65#7) sBatch) (fun t => (t.P[0], t.responses)) =
    some (0#64, [⟨1#2, 0#64⟩]) := by decide
/-- V8: the half-adder trace, planes 0, 1, 2, 5 and 7. -/
theorem test_inc : after (exec .inc sPlanes) (fun t => [t.P[0], t.P[1], t.P[2], t.P[5], t.P[7]]) =
    some [0xFFFFFFFFFFFFFFFC#64, 1#64, 5#64, 4#64, 0#64] := by decide +kernel
/-- V9 row c: every lane wraps. -/
theorem test_inc_wraps : after (exec .inc { State.reset with P := Vector.replicate 32 ONES64 }) (fun t => t.P) =
    some (Vector.replicate 32 ZERO64) := by decide +kernel
/-- V15: lane 63 comes from bit 63, bit 31 of a value from plane 31. -/
theorem test_tout : after (exec (.tout 64#7)
    { State.reset with P := (State.reset.P.set 0 0xFFFFFFFFFFFFFFFE#64).set 31 0x8000000000000001#64 })
    (fun t => (t.OUT[0], t.OUT[1], t.OUT[63], t.OCNT)) =
    some (0x80000000#32, 1#32, 0x80000001#32, 64#7) := by decide +kernel
/-- R74: an older, longer OutputBatch leaves no residue. -/
theorem test_tout_0 : after (exec (.tout 0#7) sOut) (fun t => (t.OUT[2], t.OCNT)) = some (0#32, 0#7) := by
  decide +kernel
/-- V18: the batch of S5. -/
theorem test_incb : after (exec (.incb 3#7) sBatch) (fun t => [t.OUT[0], t.OUT[1], t.OUT[2], t.OUT[3]]) =
    some [6#32, 0#32, 0x65#32, 0#32] := by decide +kernel
/-- V18: the planes INCB leaves for the count 0. -/
theorem test_incb_0 : after (exec (.incb 0#7) sBatch) (fun t => (t.P[0], t.P[1], t.OCNT)) =
    some (0xFFFFFFFFFFFFFFFF#64, 0#64, 0#7) := by decide +kernel

/-! ### The step -/

/-- R97: `0x8841` is `IllegalCommand`, not `OutOfRange`. -/
theorem test_step_illegal : after (step (sOut.presentFirst (.command 0x8841#16 0#64))) (fun t => (t.responses, t.OCNT)) =
    some ([⟨2#2, 0#64⟩], 3#7) := by decide
/-- R105: reset empties the OutputBatch and returns no response. -/
theorem test_step_reset : after (step (sOut.presentFirst .reset)) (fun t => (t.OUT[2], t.OCNT, t.responses)) =
    some (0#32, 0#7, []) := by decide
/-- A table word is fetched and runs as the first command after reset. -/
theorem test_step_fetch_word : after (step (State.reset.withFetchWord 16 0x6000)) (fun t => (t.responses, t.host)) =
    some ([⟨0#2, 0#64⟩], []) := by decide

/-! ### The assembler -/

/-- R53: digit groups, a comment, and the block's own refusal left to the block. -/
theorem test_asm_line : assembleLine "  wrp 0x1F, 0x8000_0000_0000_0001 ; top".toList =
    .ok (some (0x301F#16, 0x8000000000000001#64)) := by decide
/-- R53: an operand outside its field is an assembly error. -/
theorem test_asm_lane_64 : assembleLine "rdv 64".toList = .error .operandOutsideField := by decide
/-- R53: one command per line. -/
theorem test_asm_text : assembleText "tin 65\ninc".toList = .ok [(0x8041#16, 0#64), (0x9000#16, 0#64)] := by decide

/-! ### Witnesses: states and operands that meet the hypotheses of each obligation -/

/-- EncodeOfDecodeIsTheWord; StepPerformsTheDecodedCommand, both clauses; EveryCommandGetsOneResponse. -/
theorem witness_command_at_the_head :
    decode 0x103F#16 7#64 = .ok (.wrv 63#6 7#64) ∧
    (sOut.presentFirst (.command 0x103F#16 7#64)).host = .command 0x103F#16 7#64 :: [] ∧
    decode 0x1040#16 7#64 = .error .laneBitNonZero ∧
    (sOut.presentFirst (.command 0x1040#16 7#64)).host = .command 0x1040#16 7#64 :: [] := by decide
/-- WordSelectsTheRowOfItsCommand, its two clauses with a premise. -/
theorem witness_row_of_a_word : rowsOf 0x1040#16 = [] ∧ decode 0x807F#16 0#64 = .ok (.tin 127#7) := by decide
/-- LegalWordCounts, its first clause; IllegalCommandComesBeforeOutOfRange, its first clause: illegal words by
must-be-zero bits, by bit 6 of RDO and by an unassigned opcode with `arg = 65`. -/
theorem witness_illegal_words :
    (0x8841#16).extractLsb' 7 5 ≠ 0#5 ∧ decode 0x5040#16 0#64 = .error .laneBitNonZero ∧
    decode 0x7041#16 0#64 = .error .unassignedOpcode ∧
    (sOut.presentFirst (.command 0x5040#16 0#64)).host = .command 0x5040#16 0#64 :: [] := by decide
/-- IllegalCommandComesBeforeOutOfRange, its second clause: `rdo 3` with `OCNT = 3` answers status 1. -/
theorem witness_status_1 :
    ∃ t, step (sOut.presentFirst (.command 0x5003#16 0#64)) = .next t ∧
      t.responses = sOut.responses ++ [⟨1#2, 0#64⟩] :=
  ⟨sOut.pushResponse ⟨1#2, 0#64⟩, rfl, rfl⟩
/-- IllegalCommandComesBeforeOutOfRange, its last two clauses: the least count above 64 in each of the three words,
and the lane at `OCNT`. -/
theorem witness_out_of_range_words :
    64 < (65#7).toNat ∧ 0x8041#16 = 0x8000#16 ||| (65#7).setWidth 16 ∧
    0xA041#16 = 0xA000#16 ||| (65#7).setWidth 16 ∧ 0xB041#16 = 0xB000#16 ||| (65#7).setWidth 16 ∧
    (sOut.presentFirst (.command 0x8041#16 0#64)).host = .command 0x8041#16 0#64 :: [] ∧
    (sOut.presentFirst (.command 0x5003#16 0#64)).host =
      .command (0x5000#16 ||| (3#6).setWidth 16) 0#64 :: [] ∧ sOut.OCNT.toNat ≤ (3#6).toNat := by decide
/-- ResetEventZeroesTheBlock. -/
theorem witness_reset_event : (sOut.presentFirst .reset).host = .reset :: [] := by decide
/-- IdleBlockHoldsItsState. -/
theorem witness_nothing_presented : sOut.host = [] := by decide
/-- RefusedCommandWritesNothing: `rdo 3` with `OCNT = 3`. -/
theorem witness_refused_command :
    ∃ t, step (sOut.presentFirst (.command 0x5003#16 0#64)) = .next t ∧
      t.responses = sOut.responses ++ [⟨1#2, 0#64⟩] ∧ (1#2 : BitVec 2) ≠ 0#2 :=
  ⟨sOut.pushResponse ⟨1#2, 0#64⟩, rfl, rfl, by decide⟩
/-- OutOfRangeIsRaisedExactlyWhenDue: its four clauses at their boundary values; RdoReturnsADeliveredLane. -/
theorem witness_range_boundaries :
    64 < (65#7).toNat ∧ (64#7).toNat ≤ 64 ∧ sOut.OCNT.toNat ≤ (3#6).toNat ∧ (2#6).toNat < sOut.OCNT.toNat ∧
    (2 : Fin 64).val = (2#6).toNat ∧ (3 : Fin 64).val = (3#6).toNat := by decide
/-- RdvReturnsOneInputLane and RdpReturnsOnePlane, at the last lane and the last plane. -/
theorem witness_last_index : (63 : Fin 64).val = (63#6).toNat ∧ (31 : Fin 32).val = (31#5).toNat := by decide
/-- IgnoredDataBitsHaveNoEffect: both clauses. -/
theorem witness_ignored_data :
    (0x8003#16).extractLsb' 12 4 ≠ 0x1#4 ∧ (0x8003#16).extractLsb' 12 4 ≠ 0x3#4 ∧
    (0x1005#16).extractLsb' 12 4 = 0x1#4 ∧
    (0xFFFFFFFF00000001#64).extractLsb' 0 32 = (1#64).extractLsb' 0 32 := by decide
/-- Every statement with a legal count: the greatest and the least one, with lanes below and at the count. -/
theorem witness_legal_counts :
    (64#7).toNat ≤ 64 ∧ (63 : Fin 64).val < (64#7).toNat ∧ (0#7).toNat ≤ 64 ∧ (0#7).toNat ≤ (0 : Fin 64).val ∧
    (3#7).toNat ≤ 64 ∧ (2 : Fin 64).val < (3#7).toNat ∧ (3#7).toNat ≤ (3 : Fin 64).val := by decide
/-- TinDependsOnTheFirstLanesOnly: two batches that differ in lane 3 only, count 3. -/
theorem witness_first_lanes_agree :
    (3#7).toNat ≤ 64 ∧ (∀ i : Fin 64, i.val < (3#7).toNat → batch[i] = (batch.set 3 0#32)[i]) ∧
    batch[3] ≠ (batch.set 3 0#32)[3] := by decide +kernel
/-- IncWrapsAFullLaneToZero: lane 1 of V1. -/
theorem witness_full_lane : laneVal sPlanes.P (1 : Fin 64).val = 0xFFFF_FFFF#32 := by decide +kernel
/-- IncTreatsLanesSeparately: lane 0 agrees although lane 1 does not. -/
theorem witness_one_lane_agrees :
    (∀ n : Fin 32, planesV1[n].getLsbD (0 : Fin 64).val = (planesV1.set 0 1#64)[n].getLsbD (0 : Fin 64).val) ∧
    planesV1 ≠ planesV1.set 0 1#64 := by decide +kernel
/-- TransposeRoundTripRestoresMaskedPlanes: the planes of V1 are masked at the count 3, and there is a state with
the delivered lanes in `IN`. -/
theorem witness_masked_planes :
    (3#7).toNat ≤ 64 ∧
    (∀ (n : Fin 32) (i : Fin 64), (3#7).toNat ≤ i.val → sPlanes.P[n].getLsbD i.val = false) ∧
    (∃ t, exec (.tout 3#7) sPlanes = .next t ∧
      ∀ i : Fin 64, i.val < (3#7).toNat → ({ State.reset with IN := t.OUT } : State).IN[i] = t.OUT[i]) :=
  ⟨by decide, by decide +kernel, _, exec_tout (by decide) _, fun _ _ => rfl⟩
/-- IncbIsIdempotentAndLanewise: lane 0 agrees, lane 1 does not. -/
theorem witness_lanewise :
    (3#7).toNat ≤ 64 ∧ (0 : Fin 64).val < (3#7).toNat ∧ batch[(0 : Fin 64)] = (batch.set 1 7#32)[(0 : Fin 64)] ∧
    batch ≠ batch.set 1 7#32 := by decide +kernel
/-- DifferentCountsDeliverTheNumberOfIncrements: counts 3 and 5, a lane for each clause. -/
theorem witness_different_counts :
    (3#7).toNat ≤ 64 ∧ (5#7).toNat ≤ 64 ∧ (2 : Fin 64).val < (5#7).toNat ∧ (2 : Fin 64).val < (3#7).toNat ∧
    (3 : Fin 64).val < (5#7).toNat ∧ (3#7).toNat ≤ (3 : Fin 64).val := by decide
/-- CommandsWriteOnlyTheirElements: a command for each clause. -/
theorem witness_unwritten_elements :
    writesIN (.tin 3#7) = false ∧ writesP (.tout 3#7) = false ∧ writesOutput .inc = false := by decide
/-- OnlyTheseStepsChangeInputOrOutput: a step that changes `IN`, and one that changes the output. -/
theorem witness_changing_steps :
    (∃ t, step (sOut.presentFirst (.command 0x1000#16 5#64)) = .next t ∧ t.IN ≠ sOut.IN) ∧
    (∃ t, step (sOut.presentFirst .reset) = .next t ∧ t.OCNT ≠ sOut.OCNT) :=
  ⟨⟨(sOut.writeIN 0 5#32).pushResponse ⟨0#2, 0#64⟩, rfl, by decide⟩, ⟨sOut.clearBlock, rfl, by decide⟩⟩
/-- ResultsDependOnlyOnTheElementsRead: two states that differ in all INCB does not read. -/
theorem witness_same_sources :
    (readsIN (.incb 3#7) = true → sBatch.IN = { sOut with IN := batch, P := planesV1 }.IN) ∧
    (readsP (.incb 3#7) = true → sBatch.P = { sOut with IN := batch, P := planesV1 }.P) ∧
    (readsOUT (.incb 3#7) = true → sBatch.OUT = { sOut with IN := batch, P := planesV1 }.OUT) ∧
    (readsOCNT (.incb 3#7) = true → sBatch.OCNT = { sOut with IN := batch, P := planesV1 }.OCNT) := by decide +kernel
/-- EveryStepKeepsTheStateLegal: a legal state with an OutputBatch, and a step it takes. -/
theorem witness_legal_state :
    LegalState (sOut.presentFirst .reset) ∧ ∃ t, step (sOut.presentFirst .reset) = .next t :=
  ⟨⟨by decide, by decide +kernel⟩, sOut.clearBlock, rfl⟩
/-- EveryRunIsSafe and RunsComposeInOrder: nothing pending, legal, with a response returned. -/
theorem witness_run_start :
    (sOut.pushResponse ⟨0#2, 7#64⟩).host = [] ∧ LegalState (sOut.pushResponse ⟨0#2, 7#64⟩) ∧
    ResponsesLegal (sOut.pushResponse ⟨0#2, 7#64⟩) :=
  ⟨rfl, ⟨by decide, by decide +kernel⟩, by intro r hr; simp [sOut] at hr; subst hr; decide⟩
/-- AssemblerRefusesOperandsOutsideTheirField: the greatest operands in their fields, and its last clause. -/
theorem witness_assembles :
    63 ≤ 63 ∧ 0xFFFFFFFF < 2 ^ 32 ∧ 31 ≤ 31 ∧ 0xFFFFFFFFFFFFFFFF < 2 ^ 64 ∧ 127 ≤ 127 ∧
    (AsmStmt.tin 127).assemble = .ok (0x807F#16, 0#64) := by decide

end Sys2Proof.Tests
end

section
/-! What one step can do, said once for every event the host presents, and the equation of the run. -/

namespace Sys2Proof.Machine

open Sys2Proof.Safety

/-- R41, R91: a response as the host may see it: the status is not 3, and a refusal carries no data. -/
def LegalResponse (r : Response) : Prop := r.status ≠ 3#2 ∧ (r.status ≠ 0#2 → r.rdata = 0#64)

theorem responsesLegal_iff (s : State) : ResponsesLegal s ↔ ∀ r ∈ s.responses, LegalResponse r := Iff.rfl

theorem legalResponse_ok (rdata : U64) : LegalResponse ⟨0#2, rdata⟩ := ⟨by simp, fun h => absurd rfl h⟩

theorem legalResponse_outOfRange : LegalResponse ⟨1#2, 0#64⟩ := ⟨by simp, fun _ => rfl⟩

theorem legalResponse_illegalCommand : LegalResponse ⟨2#2, 0#64⟩ := ⟨by simp, fun _ => rfl⟩

/-- R102: with nothing presented the block holds its state. -/
theorem step_idle {s : State} (h : s.host = []) : step s = .next s := by
  simp only [step, fetch_idle h, idle]

/-- R105: the reset event is taken and the block zeroed, without a response. -/
theorem step_reset {s : State} {rest : List HostEvent} (h : s.host = .reset :: rest) :
    step s = .next (s.takeEvent rest).clearBlock := by
  simp only [step, fetch_reset h, applyReset]

/-- R55: a command that decodes is taken and executed. -/
theorem step_command {s : State} {rest : List HostEvent} {w : U16} {wdata : U64} {i : Instr}
    (h : s.host = .command w wdata :: rest) (hd : decode w wdata = .ok i) :
    step s = exec i (s.takeEvent rest) := by
  simp only [step, fetch_command h hd]

/-- R55, R94: a word that is no command is taken and refused. -/
theorem step_illegal {s : State} {rest : List HostEvent} {w : U16} {wdata : U64} {e : Illegal}
    (h : s.host = .command w wdata :: rest) (hd : decode w wdata = .error e) :
    step s = .next ((s.takeEvent rest).pushResponse ⟨2#2, 0#64⟩) := by
  simp only [step, fetch_illegal h hd, raise_eq, Cause.status, Status.code]

/-- Everything a step can do, by what the host presents. -/
theorem step_cases (s : State) :
    (s.host = [] ∧ step s = .next s) ∨
    (∃ rest, s.host = .reset :: rest ∧ step s = .next (s.takeEvent rest).clearBlock) ∨
    (∃ w wdata rest i, s.host = .command w wdata :: rest ∧ decode w wdata = .ok i ∧
      step s = exec i (s.takeEvent rest)) ∨
    (∃ w wdata rest e, s.host = .command w wdata :: rest ∧ decode w wdata = .error e ∧
      step s = .next ((s.takeEvent rest).pushResponse ⟨2#2, 0#64⟩)) := by
  rcases h : s.host with _ | ⟨_ | _, rest⟩
  case nil => exact .inl ⟨rfl, step_idle h⟩
  case cons.command w wdata =>
    rcases hd : decode w wdata with e | i
    · exact .inr (.inr (.inr ⟨w, wdata, rest, e, rfl, hd, step_illegal h hd⟩))
    · exact .inr (.inr (.inl ⟨w, wdata, rest, i, rfl, hd, step_command h hd⟩))
  case cons.reset => exact .inr (.inl ⟨rest, rfl, step_reset h⟩)

/-- R41: every command ends in one response, a legal one, pushed on a state in which neither channel has
moved. -/
theorem exec_responds (i : Instr) (s : State) :
    ∃ (u : State) (r : Response), exec i s = .next (u.pushResponse r) ∧ u.host = s.host ∧
      u.responses = s.responses ∧ LegalResponse r := by
  obtain ⟨d, h⟩ | h | ⟨k, d, -, h⟩ | ⟨n, d, -, h⟩ | ⟨p, -, h⟩ | ⟨c, -, -, h⟩ | ⟨c, p, -, -, h⟩ := exec_cases i s
  case inr.inl => exact ⟨s, _, h, rfl, rfl, legalResponse_outOfRange⟩
  all_goals refine ⟨_, _, h, ?_, ?_, legalResponse_ok _⟩ <;> simp

/-- R36, R41, R105: a step takes the event at the head and appends legal responses: one for a command, none for
a reset. -/
theorem step_takes_event {s : State} {e : HostEvent} {rest : List HostEvent} (h : s.host = e :: rest) :
    ∃ t rs, step s = .next t ∧ t.host = rest ∧ t.responses = s.responses ++ rs ∧
      rs.length = [e].countP isCommandEvent ∧ ∀ r ∈ rs, LegalResponse r := by
  cases e with
  | reset => exact ⟨_, [], step_reset h, rfl, (List.append_nil _).symm, rfl, by simp⟩
  | command w wdata =>
    cases hd : decode w wdata with
    | error e =>
      exact ⟨_, _, step_illegal h hd, rfl, rfl, rfl, by simpa using legalResponse_illegalCommand⟩
    | ok i =>
      obtain ⟨u, r, hu, hhost, hresp, hr⟩ := exec_responds i (s.takeEvent rest)
      exact ⟨_, [r], (step_command h hd).trans hu, by simpa using hhost, by simpa using hresp, rfl,
        by simpa using hr⟩

/-- R9: a run of one step more goes on from where its first step ended. -/
theorem core_run_succ {s t : State} (h : step s = .next t) (k : Nat) :
    Sys2Proof.core.run (k + 1) s = Sys2Proof.core.run k t := by
  have hstep : Sys2Proof.core.step s = .next t := h
  simp only [Host.Core.run, hstep]

end Sys2Proof.Machine
end

section
/-! R19, the invariant of the OutputBatch: every command, and so every step, keeps the state legal. -/

namespace Sys2Proof.Safety

open Sys2Proof.Machine

/-- R73: Transpose-Out fills the lanes at or beyond the count with zero. -/
theorem toutLanes_beyond (P : PlaneArray) {c : Nat} {i : Fin 64} (h : c ≤ i.val) : (toutLanes P c)[i] = 0#32 := by
  simp [toutLanes, Nat.not_lt.mpr h]

theorem LegalState.of_same_output {s t : State} (hs : LegalState s) (hout : t.OUT = s.OUT)
    (hcnt : t.OCNT = s.OCNT) : LegalState t := by
  unfold LegalState
  rwa [hout, hcnt]

theorem legalState_of_tout {t : State} {c : U7} {P : PlaneArray} (hc : c.toNat ≤ 64)
    (hout : t.OUT = toutLanes P c.toNat) (hcnt : t.OCNT = c) : LegalState t := by
  unfold LegalState
  rw [hout, hcnt]
  exact ⟨hc, fun _ hi => toutLanes_beyond P hi⟩

theorem legalState_clearBlock (s : State) : LegalState s.clearBlock :=
  ⟨Nat.zero_le 64, fun _ _ => by simp⟩

/-- Only TOUT and INCB with a legal count write the output, and what they write is legal. -/
theorem exec_keeps_legal {i : Instr} {s t : State} (hs : LegalState s) (h : exec i s = .next t) :
    LegalState t := by
  obtain ⟨d, he⟩ | he | ⟨k, d, -, he⟩ | ⟨n, d, -, he⟩ | ⟨p, -, he⟩ | ⟨c, -, hc, he⟩ | ⟨c, p, -, hc, he⟩ :=
    exec_cases i s
  all_goals cases h.symm.trans he
  · exact hs.of_same_output rfl rfl
  · exact hs.of_same_output rfl rfl
  · exact hs.of_same_output rfl rfl
  · exact hs.of_same_output rfl rfl
  · exact hs.of_same_output rfl rfl
  · exact legalState_of_tout hc rfl rfl
  · exact legalState_of_tout hc rfl rfl

/-- R19: every step from a legal state gives a legal state. -/
theorem step_keeps_legal {s t : State} (hs : LegalState s) (h : step s = .next t) : LegalState t := by
  obtain ⟨-, he⟩ | ⟨rest, -, he⟩ | ⟨w, wdata, rest, i, -, -, he⟩ | ⟨w, wdata, rest, e, -, -, he⟩ := step_cases s
  · cases h.symm.trans he
    exact hs
  · cases h.symm.trans he
    exact legalState_clearBlock _
  · have hs' : LegalState (s.takeEvent rest) := hs.of_same_output rfl rfl
    exact exec_keeps_legal hs' (he.symm.trans h)
  · cases h.symm.trans he
    exact hs.of_same_output rfl rfl

end Sys2Proof.Safety
end

section
/-! Safety of every run, by induction on the events the host presents. -/

namespace Sys2Proof.Safety

open Sys2Proof.Machine

theorem responsesLegal_of_append {s t : State} {rs : List Response} (hs : ResponsesLegal s)
    (ht : t.responses = s.responses ++ rs) (hrs : ∀ r ∈ rs, LegalResponse r) : ResponsesLegal t := by
  rw [responsesLegal_iff, ht]
  exact fun r hr => (List.mem_append.mp hr).elim (hs r) (hrs r)

/-- R9: as many steps as the host has events pending take them all, and keep the state and the responses
legal. -/
theorem core_run_pending_safe (es : List HostEvent) (s : State) (hhost : s.host = es) (hs : LegalState s)
    (hr : ResponsesLegal s) :
    ∃ t, Sys2Proof.core.run es.length s = .next t ∧ LegalState t ∧ ResponsesLegal t ∧ t.host = [] ∧
      t.responses.length = s.responses.length + es.countP isCommandEvent := by
  induction es generalizing s with
  | nil => exact ⟨s, rfl, hs, hr, hhost, rfl⟩
  | cons e rest ih =>
    obtain ⟨u, rs, hstep, huhost, huresp, hlen, hrs⟩ := step_takes_event hhost
    obtain ⟨t, hrun, ht, htr, hthost, htlen⟩ :=
      ih u huhost (step_keeps_legal hs hstep) (responsesLegal_of_append hr huresp hrs)
    refine ⟨t, (core_run_succ hstep rest.length).trans hrun, ht, htr, hthost, ?_⟩
    calc t.responses.length
        = s.responses.length + [e].countP isCommandEvent + rest.countP isCommandEvent := by
          rw [htlen, huresp, List.length_append, hlen]
      _ = s.responses.length + (e :: rest).countP isCommandEvent := by
          rw [Nat.add_assoc, ← List.countP_append, List.singleton_append]

/-- Settles O49: presenting the list to an idle legal state makes it the pending events, which a run takes one
by one while the invariant holds. -/
theorem everyRunIsSafe : Obligations.EveryRunIsSafe := by
  intro es s hhost hs hr
  have hpending : (s.present es).host = es := by simp [hhost]
  exact core_run_pending_safe es (s.present es) hpending (hs.of_same_output rfl rfl) hr

end Sys2Proof.Safety
end

section
/-! R15: the value of a lane as a number. -/

namespace Sys2Proof.Machine

/-- R11: one more bit at the top of a word adds its weight. -/
theorem ofBits_succ_toNat (f : Nat → Bool) (w : Nat) :
    (ofBits f (w + 1)).toNat = (ofBits f w).toNat + (f w).toNat * 2 ^ w := by
  rw [ofBits, BitVec.toNat_cons', Nat.shiftLeft_eq, Nat.add_comm]

/-- The first `m` planes give the low `m` bits of a lane's value, and `laneSum` is the number they make. -/
theorem ofBits_lane_toNat (V : PlaneArray) (i m : Nat) :
    (ofBits (fun n => (elem V n).getLsbD i) m).toNat = laneSum V i m := by
  induction m with
  | zero => rfl
  | succ m ih => rw [ofBits_succ_toNat, ih, laneSum]

/-- Settles O28: the sum over the first `m` planes, at `m = 32`. -/
theorem laneValueIsTheWeightedSum : Obligations.LaneValueIsTheWeightedSum :=
  fun V i => ofBits_lane_toNat V i.val 32

end Sys2Proof.Machine
end

section
/-! R16, R17, R19, R26: the reset state, the invariant, and the elements a command and a step leave as they were. -/

namespace Sys2Proof.Safety

open Sys2Proof.Machine

/-- Settles O48: the invariant of the OutputBatch, which holds of every event the host presents. -/
theorem everyStepKeepsTheStateLegal : Obligations.EveryStepKeepsTheStateLegal :=
  fun _ _ hs h => step_keeps_legal hs h

/-- Settles O47: the base case of O48; the output elements at reset are those of a cleared block. -/
theorem resetStateIsLegal : Obligations.ResetStateIsLegal :=
  (legalState_clearBlock State.reset).of_same_output rfl rfl

/-- Settles O11: each array of the reset state is a replicated zero. -/
theorem resetStateIsZero : Obligations.ResetStateIsZero := by
  refine ⟨fun i => ?_, fun n => ?_, fun i => ?_, State.reset_OCNT⟩
  · simp only [State.reset_IN, Fin.getElem_fin, Vector.getElem_replicate]
  · simp only [State.reset_P, Fin.getElem_fin, Vector.getElem_replicate]
  · simp only [State.reset_OUT, Fin.getElem_fin, Vector.getElem_replicate]

/-- R16, the column "written by": the frame of every command. -/
theorem exec_frame {i : Instr} {s t : State} (h : exec i s = .next t) :
    (writesIN i = false → t.IN = s.IN) ∧ (writesP i = false → t.P = s.P) ∧
      (writesOutput i = false → t.OUT = s.OUT ∧ t.OCNT = s.OCNT) := by
  obtain ⟨d, he⟩ | he | ⟨k, d, rfl, he⟩ | ⟨n, d, rfl, he⟩ | ⟨p, ⟨c, rfl⟩ | rfl, he⟩ | ⟨c, rfl, -, he⟩ |
    ⟨c, p, rfl, -, he⟩ := exec_cases i s
  all_goals cases h.symm.trans he
  case inl | inr.inl => simp
  all_goals simp [writesIN, writesP, writesOutput]

/-- Settles O44: the frame, and the one response of every command. -/
theorem commandsWriteOnlyTheirElements : Obligations.CommandsWriteOnlyTheirElements := by
  intro i s
  obtain ⟨u, r, hexec, hhost, hresp, -⟩ := exec_responds i s
  obtain ⟨hIN, hP, hout⟩ := exec_frame hexec
  refine ⟨u.pushResponse r, hexec, hIN, hP, hout, ?_, r, ?_⟩
  · rw [State.pushResponse_host, hhost]
  · rw [State.pushResponse_responses, hresp]

/-- R17: WRV is the only command that writes `IN`. -/
theorem eq_wrv_of_writesIN {i : Instr} (h : writesIN i = true) : ∃ k d, i = .wrv k d := by
  cases i with
  | wrv k d => exact ⟨k, d, rfl⟩
  | _ => cases h

/-- R17, R27: a command that changes `IN` is a WRV. -/
theorem eq_wrv_of_exec_changes_IN {i : Instr} {s t : State} (h : exec i s = .next t) (hne : t.IN ≠ s.IN) :
    ∃ k d, i = .wrv k d := by
  obtain ⟨hIN, -, -⟩ := exec_frame h
  exact eq_wrv_of_writesIN (Bool.eq_true_of_not_eq_false fun hw => hne (hIN hw))

/-- R19, R75, R81: a command that changes `OUT` or `OCNT` is a TOUT or an INCB with a legal count. -/
theorem eq_tout_or_incb_of_exec_changes_output {i : Instr} {s t : State} (h : exec i s = .next t)
    (hne : t.OUT ≠ s.OUT ∨ t.OCNT ≠ s.OCNT) : ∃ c : U7, c.toNat ≤ 64 ∧ (i = .tout c ∨ i = .incb c) := by
  obtain ⟨d, he⟩ | he | ⟨k, d, -, he⟩ | ⟨n, d, -, he⟩ | ⟨p, -, he⟩ | ⟨c, hi, hc, -⟩ | ⟨c, p, hi, hc, -⟩ :=
    exec_cases i s
  case inr.inr.inr.inr.inr.inl => exact ⟨c, hc, .inl hi⟩
  case inr.inr.inr.inr.inr.inr => exact ⟨c, hc, .inr hi⟩
  all_goals
    cases h.symm.trans he
    simp at hne

/-- R48: the data word of a decoded WRV is the one sent. -/
theorem data_of_decode_wrv {w : U16} {d v : U64} {k : U6} (h : decode w d = .ok (.wrv k v)) : v = d := by
  rw [decode_carries_data] at h
  split at h
  · cases h
    rfl
  · cases h
  · next hne _ => exact (hne k v h).elim

/-- Settles O45: by what the host presents; an idle step and the refusal of an illegal word change no element. -/
theorem onlyTheseStepsChangeInputOrOutput : Obligations.OnlyTheseStepsChangeInputOrOutput := by
  intro s t h
  obtain ⟨-, he⟩ | ⟨rest, hhost, -⟩ | ⟨w, d, rest, i, hhost, hd, he⟩ | ⟨w, d, rest, e, -, -, he⟩ := step_cases s
  case inr.inl => exact ⟨fun _ => ⟨rest, .inl hhost⟩, fun _ => ⟨rest, .inl hhost⟩⟩
  case inr.inr.inl =>
    have hexec : exec i (s.takeEvent rest) = .next t := he.symm.trans h
    refine ⟨fun hne => ?_, fun hne => ?_⟩
    · obtain ⟨k, v, rfl⟩ := eq_wrv_of_exec_changes_IN hexec hne
      exact ⟨rest, .inr ⟨w, d, k, hhost, data_of_decode_wrv hd ▸ hd⟩⟩
    · obtain ⟨c, hc, hi⟩ := eq_tout_or_incb_of_exec_changes_output hexec hne
      refine ⟨rest, .inr ⟨w, d, c, hc, hhost, ?_⟩⟩
      rcases hi with rfl | rfl
      · exact .inl hd
      · exact .inr hd
  all_goals
    cases h.symm.trans he
    simp

end Sys2Proof.Safety
end

section
/-! R21: no result depends on history. Two states that agree on the elements a command reads answer alike. -/

namespace Sys2Proof.Safety

open Sys2Proof.Machine

/-- R16, R21: the elements the command `i` writes are the same in both states. -/
def SameWritten (i : Instr) (t t' : State) : Prop :=
  ((∃ c, i = .tin c) ∨ i = .inc ∨ (∃ c, i = .incb c) → t.P = t'.P) ∧
  ((∃ c, i = .tout c ∨ i = .incb c) → t.OUT = t'.OUT ∧ t.OCNT = t'.OCNT) ∧
  (∀ k d, i = .wrv k d → t.IN[laneIndex k] = t'.IN[laneIndex k]) ∧
  (∀ n d, i = .wrp n d → t.P[planeIndex n] = t'.P[planeIndex n])

/-- R21: the command `i` gives the same response in both states, and the same elements when it completes. -/
def AnswersAlike (i : Instr) (s s' : State) : Prop :=
  ∃ t t' r, exec i s = .next t ∧ exec i s' = .next t' ∧
    t.responses = s.responses ++ [r] ∧ t'.responses = s'.responses ++ [r] ∧
    (r.status = 0#2 → SameWritten i t t')

theorem AnswersAlike.of_pushResponse {i : Instr} {s s' u u' : State} {r : Response}
    (h : exec i s = .next (u.pushResponse r)) (h' : exec i s' = .next (u'.pushResponse r))
    (hu : u.responses = s.responses) (hu' : u'.responses = s'.responses)
    (hw : r.status = 0#2 → SameWritten i u u') : AnswersAlike i s s' :=
  ⟨_, _, r, h, h', by simp [hu], by simp [hu'], hw⟩

/-- R92: a refusal for a range gives the same response in any two states. -/
theorem AnswersAlike.of_refused {i : Instr} {s s' : State} (h : exec i s = .next (s.pushResponse ⟨1#2, 0#64⟩))
    (h' : exec i s' = .next (s'.pushResponse ⟨1#2, 0#64⟩)) : AnswersAlike i s s' :=
  .of_pushResponse h h' rfl rfl fun hs => absurd hs (by decide)

/-- A command that writes nothing leaves no result but its response. -/
theorem AnswersAlike.of_read {i : Instr} {s s' : State} {rdata : U64} (hIN : writesIN i = false)
    (hP : writesP i = false) (hout : writesOutput i = false)
    (h : exec i s = .next (s.pushResponse ⟨0#2, rdata⟩))
    (h' : exec i s' = .next (s'.pushResponse ⟨0#2, rdata⟩)) : AnswersAlike i s s' := by
  refine .of_pushResponse h h' rfl rfl fun _ => ⟨?_, ?_, ?_, ?_⟩
  · rintro (⟨c, rfl⟩ | rfl | ⟨c, rfl⟩) <;> cases hP
  · rintro ⟨c, rfl | rfl⟩ <;> cases hout
  · rintro k d rfl
    cases hIN
  · rintro n d rfl
    cases hP

theorem rdo_answersAlike (k : U6) {s s' : State} (hout : s.OUT = s'.OUT) (hcnt : s.OCNT = s'.OCNT) :
    AnswersAlike (.rdo k) s s' := by
  rcases Nat.lt_or_ge k.toNat s.OCNT.toNat with h | h
  · exact .of_read rfl rfl rfl (exec_rdo_delivered h) (hout ▸ exec_rdo_delivered (hcnt ▸ h))
  · exact .of_refused (exec_rdo_refused h) (exec_rdo_refused (hcnt ▸ h))

/-- R57: TIN takes every plane from `IN`. -/
theorem tin_answersAlike (c : U7) {s s' : State} (hIN : s.IN = s'.IN) : AnswersAlike (.tin c) s s' := by
  rcases Nat.lt_or_ge 64 c.toNat with h | h
  · exact .of_refused (exec_tin_refused h s) (exec_tin_refused h s')
  · exact .of_pushResponse (exec_tin h s) (exec_tin h s') (by simp) (by simp) fun _ => by simp [SameWritten, hIN]

theorem tout_answersAlike (c : U7) {s s' : State} (hP : s.P = s'.P) : AnswersAlike (.tout c) s s' := by
  rcases Nat.lt_or_ge 64 c.toNat with h | h
  · exact .of_refused (exec_tout_refused h s) (exec_tout_refused h s')
  · exact .of_pushResponse (exec_tout h s) (exec_tout h s') (by simp) (by simp) fun _ => by simp [SameWritten, hP]

/-- R79: INCB takes planes and output from `IN` alone, whatever `P` held. -/
theorem incb_answersAlike (c : U7) {s s' : State} (hIN : s.IN = s'.IN) : AnswersAlike (.incb c) s s' := by
  rcases Nat.lt_or_ge 64 c.toNat with h | h
  · exact .of_refused (exec_incb_refused h s) (exec_incb_refused h s')
  · exact .of_pushResponse (exec_incb h s) (exec_incb h s') (by simp) (by simp) fun _ => by simp [SameWritten, hIN]

/-- Settles O46: command by command, from the elements it reads. -/
theorem resultsDependOnlyOnTheElementsRead : Obligations.ResultsDependOnlyOnTheElementsRead := by
  intro i s s' hIN hP hOUT hOCNT
  change AnswersAlike i s s'
  cases i with
  | wrv k d =>
    exact .of_pushResponse (exec_wrv k d s) (exec_wrv k d s') rfl rfl fun _ => by simp [SameWritten]
  | rdv k => exact .of_read rfl rfl rfl (exec_rdv k s) (hIN rfl ▸ exec_rdv k s')
  | wrp n d =>
    exact .of_pushResponse (exec_wrp n d s) (exec_wrp n d s') rfl rfl fun _ => by simp [SameWritten]
  | rdp n => exact .of_read rfl rfl rfl (exec_rdp n s) (hP rfl ▸ exec_rdp n s')
  | rdo k => exact rdo_answersAlike k (hOUT rfl) (hOCNT rfl)
  | rdc => exact .of_read rfl rfl rfl (exec_rdc s) (hOCNT rfl ▸ exec_rdc s')
  | tin c => exact tin_answersAlike c (hIN rfl)
  | inc => exact .of_pushResponse (exec_inc s) (exec_inc s') (by simp) (by simp) fun _ => by simp [SameWritten, hP rfl]
  | tout c => exact tout_answersAlike c (hP rfl)
  | incb c => exact incb_answersAlike c (hIN rfl)

end Sys2Proof.Safety
end

section
/-! R36: a read of an element returns what the latest write of it left. -/

namespace Sys2Proof.Machine

theorem laneData_eq_extractLsb' (d : U64) : laneData d = d.extractLsb' 0 32 :=
  BitVec.setWidth_eq_extractLsb' (by decide)

/-- R49: a lane goes out under 32 zero bits. -/
theorem laneRead_eq_append (v : U32) : laneRead v = 0#32 ++ v :=
  BitVec.setWidth_eq_append (by decide)

theorem State.writeIN_IN_same (s : State) (k : Fin 64) (v : U32) : (s.writeIN k v).IN[k] = v :=
  Vector.getElem_set_self k.isLt

theorem State.writeP_P_same (s : State) (k : Fin 32) (v : U64) : (s.writeP k v).P[k] = v :=
  Vector.getElem_set_self k.isLt

/-- Settles O24: the read finds the element just written, behind the response of the write. -/
theorem readAfterWriteSeesTheWrite : Obligations.ReadAfterWriteSeesTheWrite := by
  refine ⟨fun i d s => ⟨_, _, exec_wrv i d s, exec_rdv i _, ?_⟩,
    fun n d s => ⟨_, _, exec_wrp n d s, exec_rdp n _, ?_⟩⟩
  · rw [State.pushResponse_IN, State.writeIN_IN_same, laneRead_eq_append,
      laneData_eq_extractLsb']
    simp
  · rw [State.pushResponse_P, State.writeP_P_same, planeRead, planeData]
    simp

end Sys2Proof.Machine
end

section
/-! R36: commands take effect in the order presented. What the host presents later plays no part in a step, so a
run may be cut at any event. -/

namespace Sys2Proof.Machine

/-- R36: a command neither sees nor touches what the host presents after it. -/
theorem exec_present (i : Instr) (s : State) (fs : List HostEvent) :
    ∃ t, exec i s = .next t ∧ exec i (s.present fs) = .next (t.present fs) := by
  cases i with
  | wrv k d => exact ⟨_, exec_wrv k d s, exec_wrv k d (s.present fs)⟩
  | rdv k => exact ⟨_, exec_rdv k s, exec_rdv k (s.present fs)⟩
  | wrp n d => exact ⟨_, exec_wrp n d s, exec_wrp n d (s.present fs)⟩
  | rdp n => exact ⟨_, exec_rdp n s, exec_rdp n (s.present fs)⟩
  | rdo k =>
    rcases Nat.lt_or_ge k.toNat s.OCNT.toNat with h | h
    · exact ⟨_, exec_rdo_delivered h, exec_rdo_delivered (s := s.present fs) h⟩
    · exact ⟨_, exec_rdo_refused h, exec_rdo_refused (s := s.present fs) h⟩
  | rdc => exact ⟨_, exec_rdc s, exec_rdc (s.present fs)⟩
  | tin c =>
    rcases Nat.lt_or_ge 64 c.toNat with h | h
    · exact ⟨_, exec_tin_refused h s, exec_tin_refused h (s.present fs)⟩
    · refine ⟨_, exec_tin h s, ?_⟩
      rw [exec_tin h, State.present_setPlanes, State.present_pushResponse, State.present_IN]
  | inc =>
    refine ⟨_, exec_inc s, ?_⟩
    rw [exec_inc, State.present_setPlanes, State.present_pushResponse, State.present_P]
  | tout c =>
    rcases Nat.lt_or_ge 64 c.toNat with h | h
    · exact ⟨_, exec_tout_refused h s, exec_tout_refused h (s.present fs)⟩
    · refine ⟨_, exec_tout h s, ?_⟩
      rw [exec_tout h, State.present_setOutput, State.present_pushResponse, State.present_P]
  | incb c =>
    rcases Nat.lt_or_ge 64 c.toNat with h | h
    · exact ⟨_, exec_incb_refused h s, exec_incb_refused h (s.present fs)⟩
    · refine ⟨_, exec_incb h s, ?_⟩
      rw [exec_incb h, State.present_setPlanes, State.present_setOutput, State.present_pushResponse, State.present_IN]

theorem State.present_host_cons {s : State} {e : HostEvent} {rest : List HostEvent} (h : s.host = e :: rest)
    (fs : List HostEvent) : (s.present fs).host = e :: (rest ++ fs) := by
  rw [State.present_host, h, List.cons_append]

theorem State.present_append (s : State) (es fs : List HostEvent) :
    s.present (es ++ fs) = (s.present es).present fs := by
  rw [State.present, State.present, State.present, List.append_assoc]

/-- A step that takes an event is the same step, whatever the host presents after that event. -/
theorem step_present {s t : State} {e : HostEvent} {rest : List HostEvent} (h : s.host = e :: rest)
    (hstep : step s = .next t) (fs : List HostEvent) : step (s.present fs) = .next (t.present fs) := by
  have hfs := State.present_host_cons h fs
  cases e with
  | reset =>
    cases hstep.symm.trans (step_reset h)
    exact step_reset hfs
  | command w wdata =>
    cases hd : decode w wdata with
    | error e =>
      cases hstep.symm.trans (step_illegal h hd)
      exact step_illegal hfs hd
    | ok i =>
      obtain ⟨u, hu, hufs⟩ := exec_present i (s.takeEvent rest) fs
      cases hstep.symm.trans ((step_command h hd).trans hu)
      exact (step_command hfs hd).trans hufs

/-- R95: a step always ends in a next state. -/
theorem step_next (s : State) : ∃ t, step s = .next t := by
  cases h : s.host with
  | nil => exact ⟨s, step_idle h⟩
  | cons e rest =>
    obtain ⟨t, -, hstep, -⟩ := step_takes_event h
    exact ⟨t, hstep⟩

/-- R9: a run of `m + k` steps is one of `k` steps from where one of `m` steps ended. -/
theorem core_run_add {s t : State} {m : Nat} (h : Sys2Proof.core.run m s = .next t) (k : Nat) :
    Sys2Proof.core.run (m + k) s = Sys2Proof.core.run k t := by
  induction m generalizing s with
  | zero =>
    cases h
    rw [Nat.zero_add]
  | succ m ih =>
    obtain ⟨u, hu⟩ := step_next s
    rw [Nat.succ_add, core_run_succ hu]
    exact ih ((core_run_succ hu m).symm.trans h)

end Sys2Proof.Machine

namespace Sys2Proof.Safety

open Sys2Proof.Machine

/-- R9, R36: a run over all pending events ends, and events presented after them are still pending at its end. -/
theorem core_run_pending (es : List HostEvent) (s : State) (hhost : s.host = es) :
    ∃ t, Sys2Proof.core.run es.length s = .next t ∧ t.host = [] ∧
      ∀ fs, Sys2Proof.core.run es.length (s.present fs) = .next (t.present fs) := by
  induction es generalizing s with
  | nil => exact ⟨s, rfl, hhost, fun _ => rfl⟩
  | cons e rest ih =>
    obtain ⟨u, -, hstep, huhost, -⟩ := step_takes_event hhost
    obtain ⟨t, hrun, hthost, hfs⟩ := ih u huhost
    exact ⟨t, (core_run_succ hstep rest.length).trans hrun, hthost,
      fun fs => (core_run_succ (step_present hhost hstep fs) rest.length).trans (hfs fs)⟩

/-- A run from a state with nothing pending ends with nothing pending, and a longer list goes on from there. -/
theorem run_from_idle (es : List HostEvent) {s : State} (hhost : s.host = []) :
    ∃ t, run es s = .next t ∧ t.host = [] ∧ ∀ fs, run (es ++ fs) s = run fs t := by
  have hpending : (s.present es).host = es := by simp [hhost]
  obtain ⟨t, hrun, hthost, hfs⟩ := core_run_pending es (s.present es) hpending
  refine ⟨t, hrun, hthost, fun fs => ?_⟩
  rw [run, List.length_append, State.present_append]
  exact core_run_add (hfs fs) fs.length

/-- Settles O50: each list in turn runs from a state with nothing pending. -/
theorem runsComposeInOrder : Obligations.RunsComposeInOrder := by
  intro es fs s hhost
  obtain ⟨t, hes, hthost, happend⟩ := run_from_idle es hhost
  obtain ⟨u, hfs, -, -⟩ := run_from_idle fs hthost
  exact ⟨t, u, hes, hfs, (happend fs).trans hfs⟩

end Sys2Proof.Safety
end

section
/-! R42 to R50: the decoder format by format, and the word of a command as its three fields. -/

namespace Sys2Proof

@[simp] theorem opField_append (op : U4) (mbz : U5) (arg : U7) : opField (op ++ mbz ++ arg) = op := by
  rw [opField, BitVec.extractLsb'_append_eq_of_le (by decide), BitVec.extractLsb'_append_eq_left]

@[simp] theorem mbzField_append (op : U4) (mbz : U5) (arg : U7) : mbzField (op ++ mbz ++ arg) = mbz := by
  rw [mbzField, BitVec.extractLsb'_append_eq_of_le (by decide), BitVec.extractLsb'_append_eq_right]

@[simp] theorem argField_append (op : U4) (mbz : U5) (arg : U7) : argField (op ++ mbz ++ arg) = arg := by
  rw [argField, BitVec.extractLsb'_append_eq_right]

/-- R43: the `arg` field of a command's word, its operand under zero bits. -/
def Instr.argument : Instr → U7
  | .wrv i _ => i.setWidth 7
  | .rdv i => i.setWidth 7
  | .wrp n _ => n.setWidth 7
  | .rdp n => n.setWidth 7
  | .rdo i => i.setWidth 7
  | .rdc => 0#7
  | .tin c => c
  | .inc => 0#7
  | .tout c => c
  | .incb c => c

/-- An operand of at most seven bits, put into a word that holds the opcode alone, fills the `arg` field. -/
theorem or_setWidth_eq_fields {n : Nat} (op : U4) (x : BitVec n) (hn : n ≤ 7) :
    (op ++ 0#12) ||| x.setWidth 16 = op ++ 0#5 ++ x.setWidth 7 := by
  have hop : op ++ 0#12 = op ++ 0#5 ++ 0#7 := by revert op; decide
  have hx : x.setWidth 16 = 0#9 ++ x.setWidth 7 := by
    rw [← BitVec.setWidth_setWidth (v := 7) (by omega)]
    exact BitVec.setWidth_eq_append (by decide)
  rw [hop, hx, BitVec.or_append, BitVec.or_zero, BitVec.zero_or]

/-- R42, R44: the word of a command is its opcode, zeros and its operand. -/
theorem encodeWord_eq_fields (i : Instr) : encodeWord i = i.opcode ++ 0#5 ++ i.argument := by
  cases i with
  | wrv k d => exact or_setWidth_eq_fields 0x1#4 k (by decide)
  | rdv k => exact or_setWidth_eq_fields 0x2#4 k (by decide)
  | wrp n d => exact or_setWidth_eq_fields 0x3#4 n (by decide)
  | rdp n => exact or_setWidth_eq_fields 0x4#4 n (by decide)
  | rdo k => exact or_setWidth_eq_fields 0x5#4 k (by decide)
  | rdc => rfl
  | tin c => exact (or_setWidth_eq_fields 0x8#4 c (by decide)).trans (by rw [BitVec.setWidth_eq]; rfl)
  | inc => rfl
  | tout c => exact (or_setWidth_eq_fields 0xA#4 c (by decide)).trans (by rw [BitVec.setWidth_eq]; rfl)
  | incb c => exact (or_setWidth_eq_fields 0xB#4 c (by decide)).trans (by rw [BitVec.setWidth_eq]; rfl)

/-- R43: format N accepts the argument 0. -/
theorem formN_eq_ok_iff {arg : U7} {i j : Instr} : formN arg i = .ok j ↔ arg = 0#7 ∧ i = j := by
  unfold formN
  split <;> simp [*]

/-- R43, R46: format L accepts the arguments that are a lane index under a zero bit. -/
theorem formL_eq_ok_iff {arg : U7} {f : U6 → Instr} {j : Instr} :
    formL arg f = .ok j ↔ ∃ k : U6, arg = k.setWidth 7 ∧ f k = j := by
  have hlane : ∀ k : U6, (k.setWidth 7).extractLsb' 6 1 = 0#1 ∧ laneField (k.setWidth 7) = k := by decide
  have harg : ∀ arg : U7, arg.extractLsb' 6 1 = 0#1 → arg = (laneField arg).setWidth 7 := by decide
  unfold formL
  constructor
  · intro h
    split at h
    next hbit => exact ⟨laneField arg, harg arg hbit, Except.ok.inj h⟩
    next => cases h
  · rintro ⟨k, rfl, rfl⟩
    obtain ⟨hbit, hk⟩ := hlane k
    rw [if_pos hbit, hk]

/-- R43, R47: format P accepts the arguments that are a plane index under two zero bits. -/
theorem formP_eq_ok_iff {arg : U7} {f : U5 → Instr} {j : Instr} :
    formP arg f = .ok j ↔ ∃ n : U5, arg = n.setWidth 7 ∧ f n = j := by
  have hplane : ∀ n : U5, (n.setWidth 7).extractLsb' 5 2 = 0#2 ∧ planeField (n.setWidth 7) = n := by decide
  have harg : ∀ arg : U7, arg.extractLsb' 5 2 = 0#2 → arg = (planeField arg).setWidth 7 := by decide
  unfold formP
  constructor
  · intro h
    split at h
    next hbits => exact ⟨planeField arg, harg arg hbits, Except.ok.inj h⟩
    next => cases h
  · rintro ⟨n, rfl, rfl⟩
    obtain ⟨hbits, hn⟩ := hplane n
    rw [if_pos hbits, hn]

/-- R43, R45: format C accepts every argument. -/
theorem formC_eq_ok_iff {arg : U7} {f : U7 → Instr} {j : Instr} : formC arg f = .ok j ↔ f arg = j := by
  simp [formC]

/-- R42 to R50: the word of a command decodes to that command, with the operand and the data word sent. -/
theorem decode_encode (i : Instr) : decode (encodeWord i) (encodeData i) = .ok i := by
  rw [encodeWord_eq_fields]
  unfold decode
  simp only [opField_append, mbzField_append, argField_append]
  cases i <;> simp [Instr.opcode, Instr.argument, encodeData, formN_eq_ok_iff, formL_eq_ok_iff, formP_eq_ok_iff,
    formC_eq_ok_iff]

/-- R44, R50: a word that decodes has the fields of its command. -/
theorem fields_of_decode {w : U16} {d : U64} {i : Instr} (h : decode w d = .ok i) :
    mbzField w = 0#5 ∧ opField w = i.opcode ∧ argField w = i.argument := by
  unfold decode at h
  split at h
  case isTrue => cases h
  case isFalse hmbz =>
    refine ⟨not_not.mp hmbz, ?_⟩
    split at h
    case h_1 hop | h_2 hop | h_5 hop =>
      obtain ⟨k, harg, rfl⟩ := formL_eq_ok_iff.mp h
      exact ⟨BitVec.eq_of_toNat_eq hop, harg⟩
    case h_3 hop | h_4 hop =>
      obtain ⟨n, harg, rfl⟩ := formP_eq_ok_iff.mp h
      exact ⟨BitVec.eq_of_toNat_eq hop, harg⟩
    case h_6 hop | h_8 hop =>
      obtain ⟨harg, rfl⟩ := formN_eq_ok_iff.mp h
      exact ⟨BitVec.eq_of_toNat_eq hop, harg⟩
    case h_7 hop | h_9 hop | h_10 hop =>
      obtain rfl := formC_eq_ok_iff.mp h
      exact ⟨BitVec.eq_of_toNat_eq hop, rfl⟩
    case h_11 => cases h

/-- R44, R50: a word that decodes is the word of its command. -/
theorem encodeWord_of_decode {w : U16} {d : U64} {i : Instr} (h : decode w d = .ok i) : encodeWord i = w := by
  obtain ⟨hmbz, hop, harg⟩ := fields_of_decode h
  rw [encodeWord_eq_fields, ← hmbz, ← hop, ← harg]
  exact (word_eq_fields w).symm

end Sys2Proof
end

section
/-! R44: the rows of the opcode map that a word selects. -/

namespace Sys2Proof

/-- The mask of every row covers the opcode field, so a row a word selects has the word's opcode. -/
theorem opField_pattern_of_selects {r : OpcodeRow} {w : U16} (hr : r ∈ opcodeMap) (h : r.selects w = true) :
    opField r.pattern = opField w := by
  have hmask : ∀ r ∈ opcodeMap, opField r.mask = 0xF#4 := by decide
  have hsel : w &&& r.mask = r.pattern := by simpa [OpcodeRow.selects] using h
  calc opField r.pattern = opField (w &&& r.mask) := by rw [hsel]
    _ = opField w &&& opField r.mask := BitVec.extractLsb'_and
    _ = opField w := by rw [hmask r hr]; exact BitVec.and_allOnes

/-- R44: the rows have different opcodes. -/
theorem rowsOfOpcode_length_le (op : U4) : (opcodeMap.filter fun r => opField r.pattern == op).length ≤ 1 := by
  revert op
  decide

theorem rowsOf_length_le (w : U16) : (rowsOf w).length ≤ 1 := by
  refine le_trans ?_ (rowsOfOpcode_length_le (opField w))
  rw [← List.countP_eq_length_filter, rowsOf, ← List.countP_eq_length_filter]
  exact List.countP_mono_left fun r hr h => beq_iff_eq.mpr (opField_pattern_of_selects hr h)

/-- R44: the word of a command selects the one row of its mnemonic. -/
theorem rowsOf_encodeWord (i : Instr) : (rowsOf (encodeWord i)).map (fun r => r.mnemonic) = [i.mnemonic] := by
  cases i with
  | wrv k d => revert k; simp only [encodeWord, Instr.mnemonic]; decide
  | rdv k => revert k; decide
  | wrp n d => revert n; simp only [encodeWord, Instr.mnemonic]; decide
  | rdp n => revert n; decide
  | rdo k => revert k; decide
  | rdc => decide
  | tin c => revert c; decide
  | inc => decide
  | tout c => revert c; decide
  | incb c => revert c; decide

/-- Settles O6: a word that decodes is the word of its command. -/
theorem wordSelectsTheRowOfItsCommand : Obligations.WordSelectsTheRowOfItsCommand := by
  intro w d
  have hrow : ∀ i, decode w d = .ok i → (rowsOf w).map (fun r => r.mnemonic) = [i.mnemonic] := by
    intro i hd
    rw [← encodeWord_of_decode hd]
    exact rowsOf_encodeWord i
  refine ⟨rowsOf_length_le w, fun hnone => ?_, hrow⟩
  cases hd : decode w d with
  | error e => exact ⟨e, rfl⟩
  | ok i =>
    have hi := hrow i hd
    rw [hnone] at hi
    cases hi

end Sys2Proof
end

section
/-! R50: the words that are no command, by the five checks of WellFormed.lean. -/

namespace Sys2Proof

/-- R50 (c). -/
theorem formN_error_iff {arg : U7} {i : Instr} : (∃ e, formN arg i = .error e) ↔ arg ≠ 0#7 := by
  unfold formN
  split <;> simp [*]

/-- R50 (d). -/
theorem formL_error_iff {arg : U7} {f : U6 → Instr} :
    (∃ e, formL arg f = .error e) ↔ arg.extractLsb' 6 1 ≠ 0#1 := by
  unfold formL
  split <;> simp [*]

/-- R50 (e). -/
theorem formP_error_iff {arg : U7} {f : U5 → Instr} :
    (∃ e, formP arg f = .error e) ↔ arg.extractLsb' 5 2 ≠ 0#2 := by
  unfold formP
  split <;> simp [*]

theorem not_formC_error {arg : U7} {f : U7 → Instr} : ¬ ∃ e, formC arg f = .error e := by
  simp [formC]

/-- A field within `arg` is the field of the word in the same place. -/
theorem argField_extractLsb' (w : U16) {start len : Nat} (h : start + len ≤ 7) :
    (argField w).extractLsb' start len = w.extractLsb' start len := by
  apply BitVec.eq_of_getLsbD_eq
  intro k hk
  have : start + k < 7 := by omega
  simp [argField, BitVec.getLsbD_extractLsb', this]

theorem extractLsb'_one_ne_zero_iff {n : Nat} (x : BitVec n) (k : Nat) :
    x.extractLsb' k 1 ≠ 0#1 ↔ x.getLsbD k = true := by
  rw [BitVec.getLsbD_eq_extractLsb']
  generalize x.extractLsb' k 1 = b
  revert b
  decide

/-- R50 (a) to (e): a word is not well-formed when one of them holds. -/
theorem wordWellFormed_false_iff (w : U16) : wordWellFormed w = false ↔
    wordFormat w = none ∨ w.extractLsb' 7 5 ≠ 0#5 ∨ (wordFormat w = some .n ∧ w.extractLsb' 0 7 ≠ 0#7) ∨
    (wordFormat w = some .l ∧ w.getLsbD 6 = true) ∨ (wordFormat w = some .p ∧ w.extractLsb' 5 2 ≠ 0#2) := by
  unfold wordWellFormed
  simp only [Bool.and_eq_false_iff, or_assoc]
  simp [opcodeAssigned, mbzClear, noOperandClear, laneUnusedClear, planeUnusedClear]

/-- R50: the decoder refuses the words a check refuses, because it reads every opcode in the format of `formatOf`. -/
theorem decode_error_iff (w : U16) (d : U64) : (∃ e, decode w d = .error e) ↔ wordWellFormed w = false := by
  rw [wordWellFormed_false_iff]
  by_cases hmbz : mbzField w = 0#5
  case neg => exact iff_of_true ⟨_, decode_mbz hmbz d⟩ (.inr (.inl hmbz))
  case pos =>
    have hbits : w.extractLsb' 7 5 = 0#5 := hmbz
    have hformat : wordFormat w = formatOf (opField w) := rfl
    unfold decode
    simp only [hmbz, ne_eq, not_true_eq_false, ↓reduceIte]
    split
    case h_1 hop | h_2 hop | h_5 hop =>
      simp only [formL_error_iff, argField_extractLsb' w (show 6 + 1 ≤ 7 by decide), extractLsb'_one_ne_zero_iff]
      simp [hformat, formatOf, hop, hbits]
    case h_3 hop | h_4 hop =>
      simp only [formP_error_iff, argField_extractLsb' w (show 5 + 2 ≤ 7 by decide)]
      simp [hformat, formatOf, hop, hbits]
    case h_6 hop | h_8 hop =>
      simp only [formN_error_iff]
      simp [hformat, formatOf, hop, hbits, argField]
    case h_7 hop | h_9 hop | h_10 hop =>
      simp [hformat, formatOf, hop, hbits, not_formC_error]
    case h_11 =>
      have hnone : wordFormat w = none := by simp [formatOf, *]
      exact iff_of_true ⟨_, rfl⟩ (.inl hnone)

/-- Settles O5: decoder and checks refuse the same words. -/
theorem decodedWordsAreTheWellFormedWords : Obligations.DecodedWordsAreTheWellFormedWords := by
  intro w d
  have hrefused : isCommand w d = false ↔ wordWellFormed w = false :=
    (isCommand_false_iff w d).trans (decode_error_iff w d)
  rwa [← Bool.not_eq_true, ← Bool.not_eq_true, not_iff_not, ← Bool.eq_iff_iff] at hrefused

/-- R44: the opcodes of each format but C, and the unassigned ones. -/
theorem formatOf_eq_iff (op : U4) :
    (formatOf op = none ↔ op ∈ [0x0#4, 0x7#4, 0xC#4, 0xD#4, 0xE#4, 0xF#4]) ∧
    (formatOf op = some .n ↔ op ∈ [0x6#4, 0x9#4]) ∧ (formatOf op = some .l ↔ op ∈ [0x1#4, 0x2#4, 0x5#4]) ∧
    (formatOf op = some .p ↔ op ∈ [0x3#4, 0x4#4]) := by
  revert op
  decide

/-- Settles O4: the conditions are those under which a check of WellFormed.lean fails, opcode by opcode. -/
theorem wordIsIllegalExactlyByTheFiveConditions : Obligations.WordIsIllegalExactlyByTheFiveConditions := by
  intro w d
  constructor
  · cases decode w d with
    | ok i => exact .inl ⟨i, rfl⟩
    | error e => exact .inr ⟨e, rfl⟩
  · obtain ⟨hnone, hn, hl, hp⟩ := formatOf_eq_iff (w.extractLsb' 12 4)
    rw [decode_error_iff, wordWellFormed_false_iff, wordFormat, hnone, hn, hl, hp]

end Sys2Proof
end

section
/-! R41, R48, R55: the step on a presented command, and the data bits it ignores. -/

namespace Sys2Proof.Machine

/-- Settles O8: the step by what the word decodes to. -/
theorem stepPerformsTheDecodedCommand : Obligations.StepPerformsTheDecodedCommand :=
  fun _ _ _ _ hhost => ⟨fun _ hd => step_command hhost hd, fun _ hd => step_illegal hhost hd⟩

/-- R41, R91: the response of a command that decodes has status 0, or status 1 and no data. -/
theorem exec_status (i : Instr) (s : State) :
    ∃ (u : State) (r : Response), exec i s = .next (u.pushResponse r) ∧ u.host = s.host ∧
      u.responses = s.responses ∧ (r.status = 0#2 ∨ r = ⟨1#2, 0#64⟩) := by
  obtain ⟨d, h⟩ | h | ⟨k, d, -, h⟩ | ⟨n, d, -, h⟩ | ⟨p, -, h⟩ | ⟨c, -, -, h⟩ | ⟨c, p, -, -, h⟩ := exec_cases i s
  case inr.inl => exact ⟨s, _, h, rfl, rfl, .inr rfl⟩
  all_goals refine ⟨_, _, h, ?_, ?_, .inl rfl⟩ <;> simp

/-- Settles O13: the refusal of an illegal word has status 2, the response of a command status 0 or 1. -/
theorem everyCommandGetsOneResponse : Obligations.EveryCommandGetsOneResponse := by
  intro s rest w d hhost
  cases hd : decode w d with
  | error e => exact ⟨_, _, step_illegal hhost hd, rfl, rfl, by simp⟩
  | ok i =>
    obtain ⟨u, r, hexec, huhost, huresp, hr⟩ := exec_status i (s.takeEvent rest)
    refine ⟨_, r, (step_command hhost hd).trans hexec, by simp [huresp], by simp [huhost], ?_⟩
    rcases hr with hok | rfl
    · simp [hok]
    · simp

theorem step_presentFirst_command {w : U16} {d : U64} {i : Instr} (hd : decode w d = .ok i) (s : State) :
    step (s.presentFirst (.command w d)) = exec i s :=
  step_command (State.presentFirst_host s _) hd

theorem step_presentFirst_illegal {w : U16} {d : U64} {e : Illegal} (hd : decode w d = .error e) (s : State) :
    step (s.presentFirst (.command w d)) = .next (s.pushResponse ⟨2#2, 0#64⟩) :=
  step_illegal (State.presentFirst_host s _) hd

/-- R48: of the data word only what the decoder hands on reaches the step. -/
theorem step_presentFirst_congr {w : U16} {d d' : U64} (h : decode w d = decode w d') (s : State) :
    step (s.presentFirst (.command w d)) = step (s.presentFirst (.command w d')) := by
  cases hd : decode w d with
  | error e => rw [step_presentFirst_illegal hd, step_presentFirst_illegal (h ▸ hd)]
  | ok i => rw [step_presentFirst_command hd, step_presentFirst_command (h ▸ hd)]

/-- R48: the opcodes 1 and 3, of WRV and WRP, are the only ones for which the decoder hands on the data word. -/
theorem decode_ignores_data {w : U16} (h1 : opField w ≠ 0x1#4) (h3 : opField w ≠ 0x3#4) (d : U64) :
    decode w d = decode w 0#64 := by
  rw [decode_carries_data]
  split
  next k v hd =>
    obtain ⟨-, hop, -⟩ := fields_of_decode hd
    exact absurd hop h1
  next n v hd =>
    obtain ⟨-, hop, -⟩ := fields_of_decode hd
    exact absurd hop h3
  next => rfl

theorem eq_wrv_of_opcode {i : Instr} (h : i.opcode = 0x1#4) : ∃ k d, i = .wrv k d := by
  cases i with
  | wrv k d => exact ⟨k, d, rfl⟩
  | _ => cases h

/-- R48: WRV ignores the upper half of its data word. -/
theorem exec_wrv_congr (k : U6) {d d' : U64} (h : d.extractLsb' 0 32 = d'.extractLsb' 0 32) (s : State) :
    exec (.wrv k d) s = exec (.wrv k d') s := by
  rw [exec_wrv, exec_wrv, laneData_eq_extractLsb', laneData_eq_extractLsb', h]

/-- Settles O23: the decoder hands on the data word to WRV and WRP only, and WRV uses its lower half. -/
theorem ignoredDataBitsHaveNoEffect : Obligations.IgnoredDataBitsHaveNoEffect := by
  refine fun s w d d' => ⟨fun h1 h3 => ?_, fun h1 hdata => ?_⟩
  · exact step_presentFirst_congr ((decode_ignores_data h1 h3 d).trans (decode_ignores_data h1 h3 d').symm) s
  · cases hd : decode w 0#64 with
    | error e =>
      apply step_presentFirst_congr
      rw [decode_carries_data w d, decode_carries_data w d', hd]
    | ok i =>
      obtain ⟨-, hop, -⟩ := fields_of_decode hd
      obtain ⟨k, v, rfl⟩ := eq_wrv_of_opcode (hop.symm.trans h1)
      have hwrv : ∀ x, decode w x = .ok (.wrv k x) := fun x => by rw [decode_carries_data, hd]
      rw [step_presentFirst_command (hwrv d), step_presentFirst_command (hwrv d')]
      exact exec_wrv_congr k hdata s

end Sys2Proof.Machine
end

section
/-! R53: what a statement assembles to. -/

namespace Sys2Proof.Machine

theorem asmLane_of_le {i : Nat} (h : i ≤ 63) (f : U6 → Instr) : asmLane i f = .ok (f (BitVec.ofNat 6 i)) :=
  if_pos h

theorem asmPlane_of_le {n : Nat} (h : n ≤ 31) (f : U5 → Instr) : asmPlane n f = .ok (f (BitVec.ofNat 5 n)) :=
  if_pos h

theorem asmCount_of_le {c : Nat} (h : c ≤ 127) (f : U7 → Instr) : asmCount c f = .ok (f (BitVec.ofNat 7 c)) :=
  if_pos h

/-- R53: a statement with a data value is an error for the value or for the other operand. -/
theorem exists_error_ite_iff {p : Prop} [Decidable p] {e₀ : AsmError} {r : Except AsmError Instr} :
    (∃ e, (if p then r else .error e₀) = .error e) ↔ (∃ e, r = .error e) ∨ ¬p := by
  split <;> simp [*]

theorem asmLane_error_iff {i : Nat} {f : U6 → Instr} : (∃ e, asmLane i f = .error e) ↔ 63 < i := by
  unfold asmLane
  split <;> simp <;> omega

theorem asmPlane_error_iff {n : Nat} {f : U5 → Instr} : (∃ e, asmPlane n f = .error e) ↔ 31 < n := by
  unfold asmPlane
  split <;> simp <;> omega

theorem asmCount_error_iff {c : Nat} {f : U7 → Instr} : (∃ e, asmCount c f = .error e) ↔ 127 < c := by
  unfold asmCount
  split <;> simp <;> omega

theorem assemble_of_instr {a : AsmStmt} {k : Instr} (h : a.instr = .ok k) : a.assemble = .ok (encode k) := by
  rw [AsmStmt.assemble, h]
  rfl

theorem assemble_error_iff {a : AsmStmt} : (∃ e, a.assemble = .error e) ↔ ∃ e, a.instr = .error e := by
  unfold AsmStmt.assemble
  cases a.instr <;> simp [Except.map]

/-- R53: what a statement assembles to decodes to the statement's command. -/
theorem decode_of_assemble {a : AsmStmt} {w : U16} {d : U64} (h : a.assemble = .ok (w, d)) :
    ∃ k, a.instr = .ok k ∧ decode w d = .ok k := by
  cases hi : a.instr with
  | error e =>
    obtain ⟨e, he⟩ := assemble_error_iff.mpr ⟨e, hi⟩
    cases h.symm.trans he
  | ok k =>
    cases h.symm.trans (assemble_of_instr hi)
    exact ⟨k, rfl, decode_encode k⟩

/-- R53: a statement of the command `k`, whose word holds the operand `x`, assembles to that word, which decodes
back. -/
theorem assemble_and_decode {a : AsmStmt} {k : Instr} {n x : Nat} {b : U16} (hn : n ≤ 16) (hx : x < 2 ^ n)
    (hk : a.instr = .ok k) (hw : encodeWord k = b ||| (BitVec.ofNat n x).setWidth 16) :
    a.assemble = .ok (b ||| BitVec.ofNat 16 x, encodeData k) ∧
      decode (b ||| BitVec.ofNat 16 x) (encodeData k) = .ok k := by
  rw [BitVec.setWidth_ofNat_of_le_of_lt hn hx] at hw
  rw [← hw]
  exact ⟨assemble_of_instr hk, decode_encode k⟩

/-- Settles O52: operand by operand, and back through the decoder's inverse. -/
theorem assemblerRefusesOperandsOutsideTheirField : Obligations.AssemblerRefusesOperandsOutsideTheirField := by
  refine ⟨fun i v n x c hi hv hn hx hc => ?_, rfl, rfl, fun i v c => ?_, fun a w d h => decode_of_assemble h⟩
  · have hi' : i < 2 ^ 6 := Nat.lt_succ_of_le hi
    have hn' : n < 2 ^ 5 := Nat.lt_succ_of_le hn
    have hc' : c < 2 ^ 7 := Nat.lt_succ_of_le hc
    obtain ⟨wrv, wrv'⟩ := assemble_and_decode (a := .wrv i v) (by decide) hi'
      ((if_pos hv).trans (asmLane_of_le hi _)) rfl
    obtain ⟨rdv, rdv'⟩ := assemble_and_decode (a := .rdv i) (by decide) hi' (asmLane_of_le hi _) rfl
    obtain ⟨wrp, wrp'⟩ := assemble_and_decode (a := .wrp n x) (by decide) hn'
      ((if_pos hx).trans (asmPlane_of_le hn _)) rfl
    obtain ⟨rdp, rdp'⟩ := assemble_and_decode (a := .rdp n) (by decide) hn' (asmPlane_of_le hn _) rfl
    obtain ⟨rdo, rdo'⟩ := assemble_and_decode (a := .rdo i) (by decide) hi' (asmLane_of_le hi _) rfl
    obtain ⟨tin, tin'⟩ := assemble_and_decode (a := .tin c) (by decide) hc' (asmCount_of_le hc _) rfl
    obtain ⟨tout, tout'⟩ := assemble_and_decode (a := .tout c) (by decide) hc' (asmCount_of_le hc _) rfl
    obtain ⟨incb, incb'⟩ := assemble_and_decode (a := .incb c) (by decide) hc' (asmCount_of_le hc _) rfl
    exact ⟨wrv, rdv, wrp, rdp, rdo, tin, tout, incb, wrv', rdv', wrp', rdp', rdo', tin', tout', incb'⟩
  · simp only [assemble_error_iff, AsmStmt.instr, exists_error_ite_iff, asmLane_error_iff, asmPlane_error_iff,
      asmCount_error_iff, Nat.not_lt, and_self]

end Sys2Proof.Machine
end

section
/-! R56 to R61: TIN makes `P` the planes of the first lanes of `IN`, and the lane values of those planes are the
lanes again. -/

namespace Sys2Proof.Machine

/-- Two plane vectors with the same bits are equal. -/
theorem planes_ext {U V : PlaneArray} (h : ∀ (n : Fin 32) (i : Fin 64), U[n].getLsbD i.val = V[n].getLsbD i.val) :
    U = V :=
  array_ext fun n => BitVec.eq_of_getLsbD_eq fun i hi => h n ⟨i, hi⟩

/-- R56: of the pairs that plane `n` accumulates, only that of lane `i` reaches bit `i`, and it is there when
`i < c`. -/
theorem tinPlanes_getLsbD (IN : LaneArray) (c : Nat) (n : Fin 32) (i : Fin 64) :
    (tinPlanes IN c)[n].getLsbD i.val = (decide (i.val < c) && IN[i].getLsbD n.val) := by
  have hplane : (tinPlanes IN c)[n] = orLoop (tinBit IN n.val) c := Vector.getElem_ofFn n.isLt
  rw [Bool.eq_iff_iff, hplane, orLoop_getLsbD]
  simp only [tinBit_getLsbD, Bool.and_eq_true, decide_eq_true_eq]
  constructor
  · rintro ⟨k, hk, ⟨rfl, -⟩, hbit⟩
    exact ⟨hk, by rwa [elem_fin] at hbit⟩
  · rintro ⟨hi, hbit⟩
    exact ⟨i.val, hi, ⟨rfl, i.isLt⟩, by rwa [elem_fin]⟩

/-- R15, R56: the loop computes the closed form. -/
theorem tinPlanes_eq_planesOf (IN : LaneArray) (c : Nat) : tinPlanes IN c = planesOf IN c :=
  planes_ext fun n i => (tinPlanes_getLsbD IN c n i).trans (planesOf_getLsbD IN c n i).symm

/-- TIN with a legal count, through the closed form of its planes. -/
theorem exec_tin_planesOf {c : U7} (h : c.toNat ≤ 64) (s : State) : exec (.tin c) s =
    .next ((s.setPlanes (planesOf s.IN c.toNat)).pushResponse ⟨0#2, 0#64⟩) := by
  rw [exec_tin h, tinPlanes_eq_planesOf]

theorem planesOf_beyond (S : LaneArray) {c : Nat} (n : Fin 32) {i : Fin 64} (h : c ≤ i.val) :
    (planesOf S c)[n].getLsbD i.val = false := by
  rw [planesOf_getLsbD, decide_eq_false (Nat.not_lt.mpr h), Bool.false_and]

/-- R57, R58: the lanes at or beyond `c` have no influence on the planes. -/
theorem planesOf_congr {S S' : LaneArray} {c : Nat} (h : ∀ i : Fin 64, i.val < c → S[i] = S'[i]) :
    planesOf S c = planesOf S' c := by
  refine planes_ext fun n i => ?_
  rcases Nat.lt_or_ge i.val c with hi | hi
  · rw [planesOf_getLsbD, planesOf_getLsbD, h i hi]
  · rw [planesOf_beyond S n hi, planesOf_beyond S' n hi]

theorem planesOf_zero (S : LaneArray) (n : Fin 32) : (planesOf S 0)[n] = 0#64 :=
  BitVec.eq_of_getLsbD_eq fun i hi =>
    (planesOf_beyond S n (i := ⟨i, hi⟩) (Nat.zero_le i)).trans BitVec.getLsbD_zero.symm

/-- R15, R61: the lane values of `Planes(S, c)` are the lanes of `S` below `c`, and 0 elsewhere. -/
theorem laneVal_planesOf (S : LaneArray) (c : Nat) (i : Fin 64) :
    laneVal (planesOf S c) i.val = if i.val < c then S[i] else 0#32 := by
  refine BitVec.eq_of_getLsbD_eq fun n hn => ?_
  rw [laneVal_getLsbD _ _ ⟨n, hn⟩, planesOf_getLsbD]
  split <;> simp [*]

/-- Settles O25: the bits of the closed form, and the frame of a command that sets the planes. -/
theorem tinTransposesTheBatch : Obligations.TinTransposesTheBatch := by
  refine fun c s hc => ⟨rfl, _, exec_tin_planesOf hc s, fun n i => ?_, ?_⟩
  · rw [State.pushResponse_P, State.setPlanes_P, planesOf_getLsbD]
    split <;> simp [*]
  · simp

/-- Settles O26: the planes are those of lanes on which both states agree. -/
theorem tinDependsOnTheFirstLanesOnly : Obligations.TinDependsOnTheFirstLanesOnly :=
  ⟨fun _ s s' hc hlanes => ⟨_, _, exec_tin_planesOf hc s, exec_tin_planesOf hc s', planesOf_congr hlanes,
    fun n _ hi => planesOf_beyond s.IN n hi⟩,
   fun s => ⟨_, exec_tin_planesOf (c := 0#7) (Nat.zero_le 64) s, planesOf_zero s.IN⟩⟩

/-- Settles O27: the lane values of the planes of `IN`. -/
theorem tinKeepsEveryLaneValue : Obligations.TinKeepsEveryLaneValue :=
  fun c s hc => ⟨_, exec_tin_planesOf hc s, fun i hi => (laneVal_planesOf s.IN c.toNat i).trans (if_pos hi)⟩

end Sys2Proof.Machine
end

section
/-! R63 to R67: the half-adder loop, read as an addition in every lane. -/

namespace Sys2Proof.Machine

/-- R15: the first `m` planes are all that the sum over them reads. -/
theorem laneSum_congr {U V : PlaneArray} (i : Nat) {m : Nat} (h : ∀ k, k < m → elem U k = elem V k) :
    laneSum U i m = laneSum V i m := by
  induction m with
  | zero => rfl
  | succ m ih => rw [laneSum, laneSum, ih fun k hk => h k (by omega), h m (by omega)]

/-- R64: the two results of a half-adder are the two digits of the sum of its inputs. -/
theorem halfAdder_toNat (a b : Bool) : (a ^^ b).toNat + 2 * (a && b).toNat = a.toNat + b.toNat := by
  cases a <;> cases b <;> rfl

/-- R65: every lane's carry is seeded with 1. -/
theorem ones64_getLsbD (i : Fin 64) : ONES64.getLsbD i.val = true := by
  revert i
  decide

/-- R65: a step leaves the planes below its own as they are. -/
theorem laneSum_incStep (r : PlaneArray × U64) (i : Nat) {m : Nat} (hm : m < 32) :
    laneSum (incStep r m).1 i m = laneSum r.1 i m :=
  laneSum_congr i fun k hk => by rw [incStep_planes r m k (by omega), if_neg (by omega)]

/-- R64: a step keeps a lane's sum over the planes so far, with the carry counted at the weight of the next plane. -/
theorem laneSum_incStep_succ (r : PlaneArray × U64) (i : Nat) {m : Nat} (hm : m < 32) :
    laneSum (incStep r m).1 i (m + 1) + ((incStep r m).2.getLsbD i).toNat * 2 ^ (m + 1) =
      laneSum r.1 i (m + 1) + (r.2.getLsbD i).toNat * 2 ^ m := by
  have hadd := halfAdder_toNat ((elem r.1 m).getLsbD i) (r.2.getLsbD i)
  rw [laneSum, laneSum, laneSum_incStep r i hm, incStep_planes r m m hm, if_pos rfl, incStep_carry,
    BitVec.getLsbD_xor, BitVec.getLsbD_and, Nat.pow_succ]
  linear_combination 2 ^ m * hadd

/-- R65, R70: after `m` steps a lane has been incremented in its first `m` planes, and the carry is what overflows
them. -/
theorem laneSum_incLoop (p : PlaneArray) (i : Fin 64) {m : Nat} (hm : m ≤ 32) :
    laneSum (incLoop p m).1 i.val m + ((incLoop p m).2.getLsbD i.val).toNat * 2 ^ m = laneSum p i.val m + 1 := by
  induction m with
  | zero => simp [incLoop, laneSum, ones64_getLsbD]
  | succ m ih =>
    calc laneSum (incLoop p (m + 1)).1 i.val (m + 1) +
          ((incLoop p (m + 1)).2.getLsbD i.val).toNat * 2 ^ (m + 1)
        = laneSum (incLoop p m).1 i.val m + ((elem p m).getLsbD i.val).toNat * 2 ^ m +
            ((incLoop p m).2.getLsbD i.val).toNat * 2 ^ m := by
          rw [incLoop, laneSum_incStep_succ _ _ hm, laneSum, incLoop_later p m m hm (Nat.le_refl m)]
      _ = laneSum p i.val (m + 1) + 1 := by
          rw [Nat.add_right_comm, ih (by omega), laneSum, Nat.add_right_comm]

/-- R63, R67: without the carry out of plane 31 the lane's new value is its old value plus one, modulo 2^32. -/
theorem laneVal_incPlanes (p : PlaneArray) (i : Fin 64) : laneVal (incPlanes p) i.val = laneVal p i.val + 1#32 := by
  have hsum : (laneVal (incPlanes p) i.val).toNat + ((incLoop p 32).2.getLsbD i.val).toNat * 2 ^ 32 =
      (laneVal p i.val).toNat + 1 := by
    rw [laneValueIsTheWeightedSum, laneValueIsTheWeightedSum]
    exact laneSum_incLoop p i (Nat.le_refl 32)
  bv_omega

/-- Settles O29: the lane sum as a number, and the frame of a command that sets the planes. -/
theorem incAddsOneToEveryLane : Obligations.IncAddsOneToEveryLane := by
  refine fun s => ⟨rfl, _, exec_inc s, fun i => ?_, by simp⟩
  rw [State.pushResponse_P, State.setPlanes_P, laneVal_incPlanes, BitVec.toNat_add]
  rfl

/-- Settles O31: the sum wraps in 32 bits, and the response is that of every INC. -/
theorem incWrapsAFullLaneToZero : Obligations.IncWrapsAFullLaneToZero := by
  refine fun s i hfull => ⟨_, exec_inc s, ?_, by simp⟩
  rw [State.pushResponse_P, State.setPlanes_P, laneVal_incPlanes, hfull]
  rfl

end Sys2Proof.Machine
end

section
/-! R73 to R78: TOUT delivers the lane values of `P` below the count and 0 elsewhere; after TIN with the same count
those are the lanes of `IN`; a transpose leaves its own source as it was, so doing it again changes nothing more. -/

namespace Sys2Proof.Machine

open Sys2Proof.Safety

/-- R73, R76: of the pairs that lane `i` accumulates, only that of plane `n` reaches bit `n`. -/
theorem orLoop_toutBit (P : PlaneArray) (i : Nat) : orLoop (toutBit P i) 32 = laneVal P i := by
  refine BitVec.eq_of_getLsbD_eq fun n hn => ?_
  rw [laneVal_getLsbD P i ⟨n, hn⟩, Bool.eq_iff_iff, orLoop_getLsbD]
  simp only [toutBit_getLsbD, Bool.and_eq_true, decide_eq_true_eq]
  constructor
  · rintro ⟨k, -, ⟨rfl, -⟩, hbit⟩
    rwa [elem_eq_getElem P hn] at hbit
  · intro hbit
    exact ⟨n, hn, ⟨rfl, hn⟩, by rwa [elem_eq_getElem P hn]⟩

/-- R73: a lane below the count is rebuilt from the planes. -/
theorem toutLanes_below (P : PlaneArray) {c : Nat} {i : Fin 64} (h : i.val < c) :
    (toutLanes P c)[i] = laneVal P i.val := by
  rw [toutLanes, Fin.getElem_fin, Vector.getElem_ofFn, if_pos h]
  exact orLoop_toutBit P i.val

/-- R77: the two transposes with one count are inverse on the lanes below it. -/
theorem toutLanes_planesOf (S : LaneArray) {c : Nat} {i : Fin 64} (h : i.val < c) :
    (toutLanes (planesOf S c) c)[i] = S[i] := by
  rw [toutLanes_below _ h, laneVal_planesOf, if_pos h]

/-- Settles O35: the lanes below and beyond the count, and the frame of a command that sets the output. -/
theorem toutTransposesBack : Obligations.ToutTransposesBack := by
  refine fun c s hc => ⟨rfl, _, exec_tout hc s, fun i n hi => ?_, fun i hi => toutLanes_below s.P hi,
    fun i hi => toutLanes_beyond s.P hi, by simp⟩
  rw [State.pushResponse_OUT, State.setOutput_OUT, toutLanes_below s.P hi, laneVal_getLsbD]

/-- Settles O36: TOUT transposes the planes that TIN left. -/
theorem transposeRoundTripDeliversTheBatch : Obligations.TransposeRoundTripDeliversTheBatch :=
  fun _ s hc => ⟨_, _, exec_tin_planesOf hc s, exec_tout hc _, rfl, fun _ hi => toutLanes_planesOf s.IN hi⟩

/-- Settles O42: TIN leaves `IN`, and TOUT leaves `P`, so the second run computes the same from the same source. -/
theorem transposesAreIdempotent : Obligations.TransposesAreIdempotent :=
  fun _ s hc => ⟨⟨_, _, exec_tin hc s, exec_tin hc _, by simp [SameBlock]⟩,
    ⟨_, _, exec_tout hc s, exec_tout hc _, by simp [SameBlock]⟩⟩

end Sys2Proof.Machine
end

section
/-! R79, R80, R84: INCB leaves the block as the three stages one after the other do, and a lane it delivers is that
lane of `IN` plus one. -/

namespace Sys2Proof.Machine

open Sys2Proof.Safety

/-- R80: a lane below the count comes out of the three stages incremented. -/
theorem toutLanes_incPlanes_tinPlanes (S : LaneArray) {c : Nat} {i : Fin 64} (h : i.val < c) :
    (toutLanes (incPlanes (tinPlanes S c)) c)[i] = S[i] + 1#32 := by
  rw [toutLanes_below _ h, laneVal_incPlanes, tinPlanes_eq_planesOf, laneVal_planesOf, if_pos h]

/-- R80: what INCB delivers, lane by lane. -/
theorem exec_incb_output {c : U7} (hc : c.toNat ≤ 64) (s : State) : ∃ t, exec (.incb c) s = .next t ∧ t.OCNT = c ∧
    (∀ i : Fin 64, i.val < c.toNat → t.OUT[i] = s.IN[i] + 1#32) ∧
    (∀ i : Fin 64, c.toNat ≤ i.val → t.OUT[i] = 0#32) :=
  ⟨_, exec_incb hc s, rfl, fun _ hi => toutLanes_incPlanes_tinPlanes s.IN hi, fun _ hi => toutLanes_beyond _ hi⟩

/-- Settles O38: the composition of the three commands' effects is the effect of INCB. -/
theorem incbIsTheThreeStages : Obligations.IncbIsTheThreeStages :=
  fun _ s hc => ⟨rfl, _, _, _, _, exec_tin hc s, exec_inc _, exec_tout hc _, exec_incb hc s, by simp [SameBlock]⟩

/-- Settles O39: the delivered lanes as numbers; the three commands leave the same output as INCB. -/
theorem incbIncrementsTheBatch : Obligations.IncbIncrementsTheBatch := by
  intro c s hc
  obtain ⟨-, t₁, t₂, t₃, t, htin, hinc, htout, hincb, ⟨-, -, hOUT, hOCNT⟩, -⟩ := incbIsTheThreeStages c s hc
  obtain ⟨t', hincb', hcnt, hbelow, hbeyond⟩ := exec_incb_output hc s
  obtain rfl : t' = t := Host.Outcome.next.inj (hincb'.symm.trans hincb)
  have hnat : ∀ i : Fin 64, i.val < c.toNat → t'.OUT[i].toNat = (s.IN[i].toNat + 1) % 2 ^ 32 := fun i hi => by
    rw [hbelow i hi, BitVec.toNat_add]
    rfl
  refine ⟨⟨t', hincb, hcnt, hnat, hbeyond⟩, t₁, t₂, t₃, htin, hinc, htout, ?_⟩
  rw [← hOUT, ← hOCNT]
  exact ⟨hcnt, hnat, hbeyond⟩

/-- Settles O41: INCB leaves its source `IN` as it was, so the second run computes the same; and a delivered lane
is a function of that lane of `IN`. -/
theorem incbIsIdempotentAndLanewise : Obligations.IncbIsIdempotentAndLanewise := by
  refine ⟨fun c s hc => ⟨_, _, exec_incb hc s, exec_incb hc _, by simp [SameBlock]⟩, fun c s s' j hc hj hlane => ?_⟩
  obtain ⟨t, hexec, -, hbelow, -⟩ := exec_incb_output hc s
  obtain ⟨t', hexec', -, hbelow', -⟩ := exec_incb_output hc s'
  exact ⟨t, t', hexec, hexec', by rw [hbelow j hj, hbelow' j hj, hlane]⟩

end Sys2Proof.Machine
end

section
/-! R85 to R90: the six data-movement commands. An operand's field names one element, which a write replaces and a
read puts on the read-data word. -/

namespace Sys2Proof.Machine

/-- What an array holds after a write: the new value in the element written, and the old one in every other. -/
theorem array_set_getElem {w n : Nat} (v : Vector (BitVec w) n) (k j : Fin n) (x : BitVec w) :
    (v.set k x)[j] = if j.val = k.val then x else v[j] := by
  rw [Fin.getElem_fin, Vector.getElem_set, Fin.getElem_fin]
  exact if_congr eq_comm rfl rfl

/-- R46: a lane is the one an operand names when the operand's field is its number. -/
theorem eq_laneIndex {i : U6} {k : Fin 64} (h : k.val = i.toNat) : k = laneIndex i := Fin.ext h

/-- R47: a plane is the one an operand names when the operand's field is its number. -/
theorem eq_planeIndex {n : U5} {k : Fin 32} (h : k.val = n.toNat) : k = planeIndex n := Fin.ext h

/-- R49: the count goes out under 57 zero bits. -/
theorem countRead_eq_append (c : U7) : countRead c = 0#57 ++ c :=
  BitVec.setWidth_eq_append (by decide)

/-- Settles O17: one element of `IN` is written, with the lower half of the data word. -/
theorem wrvWritesOneInputLane : Obligations.WrvWritesOneInputLane := by
  refine fun i wdata s => ⟨rfl, _, exec_wrv i wdata s, fun k => ?_, by simp⟩
  rw [State.pushResponse_IN, State.writeIN_IN, array_set_getElem, laneIndex_val, laneData_eq_extractLsb']

/-- Settles O18: the lane read is the one the operand names. -/
theorem rdvReturnsOneInputLane : Obligations.RdvReturnsOneInputLane := by
  refine fun i s k hk => ⟨rfl, ?_⟩
  rw [eq_laneIndex hk, ← laneRead_eq_append]
  exact exec_rdv i s

/-- Settles O19: one element of `P` is written, with the whole data word. -/
theorem wrpWritesOnePlane : Obligations.WrpWritesOnePlane := by
  refine fun n wdata s => ⟨rfl, _, exec_wrp n wdata s, fun k => ?_, by simp⟩
  rw [State.pushResponse_P, State.writeP_P, array_set_getElem, planeIndex_val, planeData]

/-- Settles O20: the plane read is the one the operand names. -/
theorem rdpReturnsOnePlane : Obligations.RdpReturnsOnePlane := by
  refine fun n s k hk => ⟨rfl, ?_⟩
  rw [eq_planeIndex hk]
  exact exec_rdp n s

/-- Settles O21: the lane read is the one the operand names, delivered or refused by the comparison with `OCNT`. -/
theorem rdoReturnsADeliveredLane : Obligations.RdoReturnsADeliveredLane := by
  refine fun i s k hk => ⟨rfl, fun hdelivered => ?_, fun hbeyond => exec_rdo_refused hbeyond⟩
  rw [eq_laneIndex hk, ← laneRead_eq_append]
  exact exec_rdo_delivered hdelivered

/-- Settles O22: the count, zero-extended. -/
theorem rdcReturnsTheCount : Obligations.RdcReturnsTheCount := by
  refine fun s => ⟨rfl, ?_⟩
  rw [← countRead_eq_append]
  exact exec_rdc s

end Sys2Proof.Machine
end

section
/-! R91 to R97: when a command is refused, with which fault, and what a refusal leaves as it was. -/

namespace Sys2Proof.Machine

/-- R48: the word of a command other than WRV and WRP decodes to that command, whatever data word comes with it. -/
theorem decode_encodeWord {i : Instr} (hi : i.opcode ≠ 0x1#4 ∧ i.opcode ≠ 0x3#4) (d : U64) :
    decode (encodeWord i) d = .ok i := by
  have hop : opField (encodeWord i) = i.opcode := by rw [encodeWord_eq_fields, opField_append]
  rw [← hop] at hi
  obtain ⟨h1, h3⟩ := hi
  calc decode (encodeWord i) d
      = decode (encodeWord i) 0#64 := decode_ignores_data h1 h3 d
    _ = decode (encodeWord i) (encodeData i) := (decode_ignores_data h1 h3 (encodeData i)).symm
    _ = .ok i := decode_encode i

/-- R55: the word of a command other than WRV and WRP is taken and the command executed. -/
theorem step_encodeWord {i : Instr} (hi : i.opcode ≠ 0x1#4 ∧ i.opcode ≠ 0x3#4) {s : State} {rest : List HostEvent}
    {d : U64} (hhost : s.host = .command (encodeWord i) d :: rest) : step s = exec i (s.takeEvent rest) :=
  step_command hhost (decode_encodeWord hi d)

/-- R93: a command either is refused with `OutOfRange`, and then only responds, or completes with status 0. -/
theorem exec_refused_or_completes (i : Instr) (s : State) :
    exec i s = .next (s.pushResponse ⟨1#2, 0#64⟩) ∨
    ∃ (u : State) (r : Response), exec i s = .next (u.pushResponse r) ∧ u.responses = s.responses ∧
      r.status = 0#2 := by
  obtain ⟨d, h⟩ | h | ⟨k, d, -, h⟩ | ⟨n, d, -, h⟩ | ⟨p, -, h⟩ | ⟨c, -, -, h⟩ | ⟨c, p, -, -, h⟩ := exec_cases i s
  case inr.inl => exact .inl h
  all_goals exact .inr ⟨_, _, h, by simp, rfl⟩

/-- R92 to R94: a step that answers a command with a status other than 0 takes the event and pushes that response,
which is `(1, 0)` for a word that decodes and `(2, 0)` for any other. -/
theorem step_refused {s t : State} {rest : List HostEvent} {w : U16} {d : U64} {r : Response}
    (hhost : s.host = .command w d :: rest) (hstep : step s = .next t) (hresp : t.responses = s.responses ++ [r])
    (hr : r.status ≠ 0#2) :
    t = (s.takeEvent rest).pushResponse r ∧
      ((∃ i, decode w d = .ok i) ∧ r = ⟨1#2, 0#64⟩ ∨ (∃ e, decode w d = .error e) ∧ r = ⟨2#2, 0#64⟩) := by
  cases hd : decode w d with
  | error e =>
    cases hstep.symm.trans (step_illegal hhost hd)
    obtain rfl : ⟨2#2, 0#64⟩ = r := by simpa using hresp
    exact ⟨rfl, .inr ⟨⟨e, rfl⟩, rfl⟩⟩
  | ok i =>
    have hexec : exec i (s.takeEvent rest) = .next t := (step_command hhost hd).symm.trans hstep
    rcases exec_refused_or_completes i (s.takeEvent rest) with h | ⟨u, r', h, huresp, hok⟩
    · cases hexec.symm.trans h
      obtain rfl : ⟨1#2, 0#64⟩ = r := by simpa using hresp
      exact ⟨rfl, .inl ⟨⟨i, rfl⟩, rfl⟩⟩
    · cases hexec.symm.trans h
      obtain rfl : r' = r := by simpa [huresp] using hresp
      exact absurd hok hr

/-- Settles O14: a refusal is one response pushed on a state that differs in the event taken only. -/
theorem refusedCommandWritesNothing : Obligations.RefusedCommandWritesNothing := by
  intro s t rest w d r hhost hstep hresp hr
  obtain ⟨rfl, ⟨-, rfl⟩ | ⟨-, rfl⟩⟩ := step_refused hhost hstep hresp hr
  all_goals exact ⟨⟨rfl, rfl, rfl, rfl⟩, rfl, rfl⟩

/-- Settles O15: by induction on the number of steps, each of which ends in a next state. -/
theorem noNumberOfStepsStops : Obligations.NoNumberOfStepsStops := by
  intro k
  induction k with
  | zero => exact fun s => ⟨s, rfl⟩
  | succ k ih =>
    intro s
    obtain ⟨u, hstep⟩ := step_next s
    obtain ⟨t, hrun⟩ := ih u
    exact ⟨t, (core_run_succ hstep k).trans hrun⟩

/-- Settles O16: the count check of TIN, TOUT and INCB, and the lane check of RDO, on either side. -/
theorem outOfRangeIsRaisedExactlyWhenDue : Obligations.OutOfRangeIsRaisedExactlyWhenDue := by
  refine ⟨fun c s hc => ?_, fun c s hc => ?_, fun i s hbeyond => ?_, fun i s hdelivered => ?_⟩
  · exact ⟨exec_tin_refused hc s, exec_tout_refused hc s, exec_incb_refused hc s⟩
  · exact ⟨⟨_, exec_tin hc s, by simp⟩, ⟨_, exec_tout hc s, by simp⟩, ⟨_, exec_incb hc s, by simp⟩⟩
  · exact exec_rdo_refused hbeyond
  · exact ⟨_, _, exec_rdo_delivered hdelivered, State.pushResponse_responses _ _, rfl⟩

/-- Settles O9: a word is decoded before its command can be refused, and the refused commands' words decode. -/
theorem illegalCommandComesBeforeOutOfRange : Obligations.IllegalCommandComesBeforeOutOfRange := by
  refine ⟨fun s rest w d hhost hw => ?_, fun s t rest w d r hhost hstep hresp hr => ?_,
    fun s rest w d c hhost hc hw => ?_, fun s rest d i hhost hi => ?_⟩
  · have hillegal : ∃ e, decode w d = .error e := by
      rcases hw with herr | hmbz | rfl | rfl
      · exact herr
      · exact ⟨_, decode_mbz hmbz d⟩
      · exact (decode_error_iff _ d).mpr (by decide)
      · exact (decode_error_iff _ d).mpr (by decide)
    obtain ⟨e, hd⟩ := hillegal
    exact step_illegal hhost hd
  · obtain ⟨-, ⟨hd, -⟩ | ⟨-, rfl⟩⟩ := step_refused hhost hstep hresp (by simp [hr])
    · exact hd
    · cases hr
  · rcases hw with rfl | rfl | rfl
    · exact (step_encodeWord (i := .tin c) (by simp [Instr.opcode]) hhost).trans (exec_tin_refused hc _)
    · exact (step_encodeWord (i := .tout c) (by simp [Instr.opcode]) hhost).trans (exec_tout_refused hc _)
    · exact (step_encodeWord (i := .incb c) (by simp [Instr.opcode]) hhost).trans (exec_incb_refused hc _)
  · exact (step_encodeWord (i := .rdo i) (by simp [Instr.opcode]) hhost).trans (exec_rdo_refused hi)

end Sys2Proof.Machine
end

section
/-! R42 to R50: decoder and encoder are inverse to each other, and the data word is handed on. -/

namespace Sys2Proof

/-- Settles O2: the round trip of `decode_encode`, for the pair sent. -/
theorem decodeOfEncodeIsTheInstruction : Obligations.DecodeOfEncodeIsTheInstruction :=
  decode_encode

/-- R48: the data word of a decoded WRP is the one sent: the word of WRP does not depend on the data, so it decodes
to the WRP with the data word sent. -/
theorem data_of_decode_wrp {w : U16} {d v : U64} {n : U5} (h : decode w d = .ok (.wrp n v)) : v = d := by
  have hsent : decode w d = .ok (.wrp n d) := by
    rw [← encodeWord_of_decode h]
    exact decode_encode (.wrp n d)
  cases h.symm.trans hsent
  rfl

/-- Settles O3: the word by its fields, the data word of the two commands that carry it. -/
theorem encodeOfDecodeIsTheWord : Obligations.EncodeOfDecodeIsTheWord := by
  refine fun w d i h => ⟨encodeWord_of_decode h, ?_, ?_⟩
  · rintro k v rfl
    exact Safety.data_of_decode_wrv h
  · rintro n v rfl
    exact data_of_decode_wrp h

end Sys2Proof
end

section
/-! R63 to R71: INC bit by bit and lane by lane, and INC repeated. -/

namespace Sys2Proof.Machine

/-- R65: a plane the loop has passed holds its sum with the carry that reached it. -/
theorem incLoop_earlier (p : PlaneArray) {m k : Nat} (hm : m ≤ 32) (hk : k < m) :
    elem (incLoop p m).1 k = elem p k ^^^ (incLoop p k).2 := by
  induction m with
  | zero => exact absurd hk (Nat.not_lt_zero k)
  | succ m ih =>
    rw [incLoop, incStep_planes _ _ _ (by omega)]
    split
    next heq =>
      subst heq
      rw [incLoop_later p m m hm (Nat.le_refl m)]
    next hne => exact ih (by omega) (by omega)

/-- R65, R70: the carry into plane `m` is 1 exactly for the lanes whose lower bits are all 1. -/
theorem incLoop_carry_iff (p : PlaneArray) (i : Fin 64) {m : Nat} (hm : m ≤ 32) :
    (incLoop p m).2.getLsbD i.val = true ↔ ∀ k : Fin 32, k.val < m → p[k].getLsbD i.val = true := by
  induction m with
  | zero => exact iff_of_true (ones64_getLsbD i) fun k hk => absurd hk (Nat.not_lt_zero k.val)
  | succ m ih =>
    rw [incLoop, incStep_carry, BitVec.getLsbD_and, Bool.and_eq_true, ih (by omega),
      incLoop_later p m m hm (Nat.le_refl m), elem_eq_getElem p hm]
    constructor
    · rintro ⟨hbit, hlower⟩ k hk
      rcases Nat.lt_succ_iff_lt_or_eq.mp hk with hlt | rfl
      · exact hlower k hlt
      · exact hbit
    · exact fun hall => ⟨hall ⟨m, hm⟩ (Nat.lt_succ_self m), fun k hk => hall k (Nat.lt_succ_of_lt hk)⟩

/-- R70: each plane is flipped by the carry that reaches it. -/
theorem incPlanes_getLsbD (p : PlaneArray) (n : Fin 32) (i : Fin 64) :
    (incPlanes p)[n].getLsbD i.val = (p[n].getLsbD i.val ^^ (incLoop p n.val).2.getLsbD i.val) := by
  have hplane : (incPlanes p)[n] = p[n] ^^^ (incLoop p n.val).2 := by
    rw [← elem_fin, ← elem_fin p n]
    exact incLoop_earlier p (Nat.le_refl 32) n.isLt
  rw [hplane, BitVec.getLsbD_xor]

/-- R70: the carry that INC drops is what the lane's number overflows by. -/
theorem incLoop_dropped_carry_iff (p : PlaneArray) (i : Fin 64) :
    (incLoop p 32).2.getLsbD i.val = true ↔ (laneVal p i.val).toNat = 2 ^ 32 - 1 := by
  have hsum : (laneVal (incPlanes p) i.val).toNat + ((incLoop p 32).2.getLsbD i.val).toNat * 2 ^ 32 =
      (laneVal p i.val).toNat + 1 := by
    rw [laneValueIsTheWeightedSum, laneValueIsTheWeightedSum]
    exact laneSum_incLoop p i (Nat.le_refl 32)
  have hnew := (laneVal (incPlanes p) i.val).isLt
  have hold := (laneVal p i.val).isLt
  generalize (incLoop p 32).2.getLsbD i.val = carry at hsum ⊢
  cases carry with
  | false =>
    rw [Bool.toNat_false] at hsum
    exact iff_of_false Bool.false_ne_true (by omega)
  | true =>
    rw [Bool.toNat_true] at hsum
    exact iff_of_true rfl (by omega)

theorem laneVal_incPlanes_toNat (p : PlaneArray) (i : Fin 64) :
    (laneVal (incPlanes p) i.val).toNat = ((laneVal p i.val).toNat + 1) % 2 ^ 32 := by
  rw [laneVal_incPlanes, BitVec.toNat_add]
  rfl

/-- Settles O30: a bit is flipped by the carry that reaches its plane, which is 1 when all lower bits are. -/
theorem incFlipsABitWhenAllLowerBitsWereOne : Obligations.IncFlipsABitWhenAllLowerBitsWereOne := by
  refine fun s => ⟨_, exec_inc s, fun n i => ?_, laneVal_incPlanes_toNat s.P, incLoop_dropped_carry_iff s.P⟩
  rw [State.pushResponse_P, State.setPlanes_P, incPlanes_getLsbD]
  congr 1
  rw [Bool.eq_iff_iff, decide_eq_true_eq]
  exact incLoop_carry_iff s.P i (Nat.le_of_lt n.isLt)

/-- R15: the value of a lane is made of that lane's bits alone. -/
theorem laneVal_congr {U V : PlaneArray} {i : Nat} (h : ∀ n : Fin 32, U[n].getLsbD i = V[n].getLsbD i) :
    laneVal U i = laneVal V i :=
  BitVec.eq_of_getLsbD_eq fun n hn => by
    rw [laneVal_getLsbD U i ⟨n, hn⟩, laneVal_getLsbD V i ⟨n, hn⟩, h ⟨n, hn⟩]

/-- Settles O32: the bits of a lane after INC are those of its old value plus one. -/
theorem incTreatsLanesSeparately : Obligations.IncTreatsLanesSeparately := by
  refine fun s s' i hlane => ⟨_, _, exec_inc s, exec_inc s', fun n => ?_⟩
  simp only [State.pushResponse_P, State.setPlanes_P]
  rw [← laneVal_getLsbD, ← laneVal_getLsbD, laneVal_incPlanes, laneVal_incPlanes, laneVal_congr hlane]

/-- The state after INC. -/
def incNext (s : State) : State := (s.setPlanes (incPlanes s.P)).pushResponse ⟨0#2, 0#64⟩

/-- R71: the states that successive INC commands pass through. -/
theorem exec_inc_iterate (s : State) (k : Nat) : exec .inc (incNext^[k] s) = .next (incNext^[k + 1] s) := by
  rw [Function.iterate_succ_apply', exec_inc, incNext]

/-- R71: `k` INC commands add `k` to every lane. -/
theorem laneVal_incNext_iterate (s : State) (k : Nat) (i : Fin 64) :
    laneVal (incNext^[k] s).P i.val = laneVal s.P i.val + BitVec.ofNat 32 k := by
  induction k with
  | zero => exact (BitVec.add_zero _).symm
  | succ k ih =>
    rw [Function.iterate_succ_apply', incNext, State.pushResponse_P, State.setPlanes_P, laneVal_incPlanes, ih,
      BitVec.add_assoc, ← BitVec.ofNat_add]

/-- Settles O33: the states after `k` times INC, and their lanes. -/
theorem repeatedIncAddsTheNumberOfTimes : Obligations.RepeatedIncAddsTheNumberOfTimes := by
  refine fun s => ⟨fun k => incNext^[k] s, rfl, exec_inc_iterate s, fun k i => ?_⟩
  rw [laneVal_incNext_iterate, BitVec.toNat_add, BitVec.toNat_ofNat, Nat.add_mod_mod]

end Sys2Proof.Machine
end

section
/-! R68, R77, R82, R108: INC between the two transposes, and the lanes that TIN left empty. -/

namespace Sys2Proof.Machine

/-- R82: INC adds 1 to a lane that TIN filled. -/
theorem laneVal_incPlanes_planesOf_below (S : LaneArray) {c : Nat} {i : Fin 64} (h : i.val < c) :
    laneVal (incPlanes (planesOf S c)) i.val = S[i] + 1#32 := by
  rw [laneVal_incPlanes, laneVal_planesOf, if_pos h]

/-- R68: INC makes 1 of a lane that TIN left empty. -/
theorem laneVal_incPlanes_planesOf_beyond (S : LaneArray) {c : Nat} {i : Fin 64} (h : c ≤ i.val) :
    laneVal (incPlanes (planesOf S c)) i.val = 1#32 := by
  rw [laneVal_incPlanes, laneVal_planesOf, if_neg (Nat.not_lt.mpr h), BitVec.zero_add]

/-- R15: a lane holds 1 when its bit of plane 0 is the only one set. -/
theorem getLsbD_of_laneVal_one {V : PlaneArray} {i : Nat} (h : laneVal V i = 1#32) (n : Fin 32) :
    V[n].getLsbD i = decide (n.val = 0) := by
  rw [← laneVal_getLsbD, h, BitVec.getLsbD_one]
  rfl

/-- Settles O34: an unused lane holds 1, bit by bit. -/
theorem unusedLanesHoldOneAfterTinAndInc : Obligations.UnusedLanesHoldOneAfterTinAndInc :=
  fun _ s hc => ⟨_, _, exec_tin_planesOf hc s, exec_inc _, fun _ n hi =>
    getLsbD_of_laneVal_one (laneVal_incPlanes_planesOf_beyond s.IN hi) n⟩

/-- R77: the planes of the lanes delivered from masked planes are those planes again. -/
theorem planesOf_toutLanes {P : PlaneArray} {c : Nat}
    (hmasked : ∀ (n : Fin 32) (i : Fin 64), c ≤ i.val → P[n].getLsbD i.val = false) :
    planesOf (toutLanes P c) c = P := by
  refine planes_ext fun n i => ?_
  rcases Nat.lt_or_ge i.val c with hi | hi
  · rw [planesOf_getLsbD, decide_eq_true hi, Bool.true_and, toutLanes_below P hi, laneVal_getLsbD]
  · rw [planesOf_beyond _ n hi, hmasked n i hi]

/-- Settles O37: TIN reads only the delivered lanes, whose planes are the masked ones. -/
theorem transposeRoundTripRestoresMaskedPlanes : Obligations.TransposeRoundTripRestoresMaskedPlanes :=
  fun _ s hc hmasked => ⟨_, exec_tout hc s, fun u hcopy => ⟨_, exec_tin_planesOf hc u,
    (planesOf_congr hcopy).trans (planesOf_toutLanes hmasked)⟩⟩

/-- Settles O40: the planes of INCB are those of TIN and INC, below and beyond the count. -/
theorem incbLeavesTheIncrementedPlanes : Obligations.IncbLeavesTheIncrementedPlanes := by
  refine fun c s hc => ⟨_, exec_incb hc s, ?_⟩
  simp only [State.pushResponse_P, State.setOutput_P, State.setPlanes_P, tinPlanes_eq_planesOf]
  refine ⟨fun i hi => ?_, fun i hi => ?_⟩
  · rw [laneVal_incPlanes_planesOf_below s.IN hi, BitVec.toNat_add]
    rfl
  · have hone := laneVal_incPlanes_planesOf_beyond s.IN hi
    exact ⟨hone, getLsbD_of_laneVal_one hone⟩

/-- Settles O43: TOUT delivers the lane values after `k` times INC, from the lanes that TIN filled or left empty. -/
theorem differentCountsDeliverTheNumberOfIncrements : Obligations.DifferentCountsDeliverTheNumberOfIncrements := by
  intro c₁ c₂ s k hc₁ hc₂
  obtain ⟨t, htin, hplanes⟩ : ∃ t, exec (.tin c₁) s = .next t ∧ t.P = planesOf s.IN c₁.toNat :=
    ⟨_, exec_tin_planesOf hc₁ s, rfl⟩
  have hlane : ∀ i : Fin 64, i.val < c₂.toNat → (toutLanes (incNext^[k] t).P c₂.toNat)[i] =
      (if i.val < c₁.toNat then s.IN[i] else 0#32) + BitVec.ofNat 32 k := fun i h₂ => by
    rw [toutLanes_below _ h₂, laneVal_incNext_iterate, hplanes, laneVal_planesOf]
  refine ⟨fun j => incNext^[j] t, _, htin, exec_inc_iterate t, exec_tout hc₂ _, rfl, fun i h₂ h₁ => ?_,
    fun i h₂ h₁ => ?_⟩ <;>
    rw [State.pushResponse_OUT, State.setOutput_OUT, hlane i h₂]
  · rw [if_pos h₁, BitVec.toNat_add, BitVec.toNat_ofNat, Nat.add_mod_mod]
  · rw [if_neg (Nat.not_lt.mpr h₁), BitVec.zero_add, BitVec.toNat_ofNat]

end Sys2Proof.Machine
end

section
/-! R51: the number of legal words, opcode by opcode. -/

namespace Sys2Proof

/-- R43, R50: the arguments a format admits. -/
def Format.admits : Format → U7 → Bool
  | .n, arg => arg == 0#7
  | .c, _ => true
  | .l, arg => !arg.getLsbD 6
  | .p, arg => arg.extractLsb' 5 2 == 0#2

/-- R51: how many arguments a format admits. -/
def Format.size : Format → Nat
  | .n => 1
  | .c => 128
  | .l => 64
  | .p => 32

theorem countP_admits (f : Format) :
    ((List.range 128).countP fun k => f.admits (BitVec.ofNat 7 k)) = f.size := by
  cases f <;> rfl

/-- R50: a word without must-be-zero bits is legal when its opcode has a format that admits its argument. -/
theorem isCommand_fields (op : U4) (arg : U7) :
    isCommand (op ++ 0#5 ++ arg) 0#64 = (formatOf op).any fun f => f.admits arg := by
  have hformat : wordFormat (op ++ 0#5 ++ arg) = formatOf op := congrArg formatOf (opField_append op 0#5 arg)
  have hmbz : (op ++ 0#5 ++ arg).extractLsb' 7 5 = 0#5 := mbzField_append op 0#5 arg
  have harg : (op ++ 0#5 ++ arg).extractLsb' 0 7 = arg := argField_append op 0#5 arg
  have hlane : (op ++ 0#5 ++ arg).getLsbD 6 = arg.getLsbD 6 := by rw [BitVec.getLsbD_append, if_pos (by decide)]
  have hplane : (op ++ 0#5 ++ arg).extractLsb' 5 2 = arg.extractLsb' 5 2 := by
    rw [← argField_extractLsb' _ (by decide), argField_append]
  rw [Bool.eq_iff_iff, ← not_iff_not, Bool.not_eq_true, Bool.not_eq_true, isCommand_false_iff, decode_error_iff,
    wordWellFormed_false_iff, hformat, hmbz, harg, hlane, hplane]
  rcases formatOf op with _ | _ | _ | _ | _ <;> simp [Format.admits]

/-- R51: the legal words of one opcode. -/
theorem countP_isCommand (op : U4) :
    ((List.range 128).countP fun k => isCommand (op ++ 0#5 ++ BitVec.ofNat 7 k) 0#64) =
      (formatOf op).elim 0 Format.size := by
  simp only [isCommand_fields]
  cases formatOf op with
  | none => simp
  | some f => exact countP_admits f

/-- R45, R51: whether a word decodes to a command of a count above 64. -/
def countAbove64 : Except Illegal Instr → Bool
  | .ok (.tin c) => decide (64 < c.toNat)
  | .ok (.tout c) => decide (64 < c.toNat)
  | .ok (.incb c) => decide (64 < c.toNat)
  | _ => false

/-- R43, R45: the commands of a count are those of format C. -/
theorem countAbove64_ok (i : Instr) :
    countAbove64 (.ok i) = (decide (formatOf i.opcode = some .c) && decide (64 < i.argument.toNat)) := by
  cases i <;> rfl

theorem countAbove64_decode_fields (op : U4) (arg : U7) :
    countAbove64 (decode (op ++ 0#5 ++ arg) 0#64) =
      (decide (formatOf op = some .c) && decide (64 < arg.toNat)) := by
  cases hd : decode (op ++ 0#5 ++ arg) 0#64 with
  | ok i =>
    obtain ⟨-, hop, harg⟩ := fields_of_decode hd
    rw [opField_append] at hop
    rw [argField_append] at harg
    rw [hop, harg]
    exact countAbove64_ok i
  | error e =>
    have hillegal := (isCommand_false_iff _ _).mpr ⟨e, hd⟩
    rw [isCommand_fields] at hillegal
    have hformat : formatOf op ≠ some .c := fun hc => by simp [hc, Format.admits] at hillegal
    simp [countAbove64, hformat]

/-- R51: the words of one opcode with a count above 64. -/
theorem countP_countAbove64 (op : U4) :
    ((List.range 128).countP fun k => countAbove64 (decode (op ++ 0#5 ++ BitVec.ofNat 7 k) 0#64)) =
      if formatOf op = some .c then 63 else 0 := by
  simp only [countAbove64_decode_fields]
  split
  next hc =>
    simp only [hc]
    decide
  next hc => simp [hc]

/-- A count over `m * n` numbers, block by block. -/
theorem countP_range_mul (p : Nat → Nat → Bool) (m n : Nat) :
    ((List.range (m * n)).countP fun k => p (k / n) (k % n)) =
      ((List.range m).map fun a => (List.range n).countP (p a)).sum := by
  induction m with
  | zero => simp
  | succ m ih =>
    have hblock : ((List.range n).countP fun k => p ((m * n + k) / n) ((m * n + k) % n)) =
        (List.range n).countP (p m) :=
      List.countP_congr fun k hk => by
        have hk : k < n := List.mem_range.mp hk
        rw [Nat.mul_comm m n, Nat.mul_add_div (by omega), Nat.div_eq_of_lt hk, Nat.mul_add_mod, Nat.mod_eq_of_lt hk,
          Nat.add_zero]
    rw [Nat.succ_mul, List.range_add, List.countP_append, ih, List.countP_map, List.range_succ, List.map_append,
      List.sum_append, List.map_singleton, List.sum_singleton, ← hblock]
    rfl

/-- Settles O7: the legal words, and those with a count above 64, summed over the 16 opcodes. -/
theorem legalWordCounts : Obligations.LegalWordCounts := by
  refine ⟨fun w d hmbz => (isCommand_false_iff w d).mpr ⟨_, decode_mbz hmbz d⟩, ?_, ?_⟩
  · refine (countP_range_mul
      (fun op k => isCommand (BitVec.ofNat 4 op ++ 0#5 ++ BitVec.ofNat 7 k) 0#64) 16 128).trans ?_
    simp only [countP_isCommand]
    decide
  · refine (countP_range_mul
      (fun op k => countAbove64 (decode (BitVec.ofNat 4 op ++ 0#5 ++ BitVec.ofNat 7 k) 0#64)) 16 128).trans ?_
    simp only [countP_countAbove64]
    decide

end Sys2Proof
end

section
/-! R102, R105: the two steps without a command. -/

namespace Sys2Proof.Machine

/-- Settles O10: the reset event leaves the cleared block, and the responses as they were. -/
theorem resetEventZeroesTheBlock : Obligations.ResetEventZeroesTheBlock :=
  fun _ _ hhost => ⟨_, step_reset hhost, by simp⟩

/-- Settles O12: the idle step. -/
theorem idleBlockHoldsItsState : Obligations.IdleBlockHoldsItsState :=
  fun _ => step_idle

end Sys2Proof.Machine
end

section
/-! R53: the rows of its table, read by the decoder and by the assembler. -/

namespace Sys2Proof.Machine

/-- Settles O1: each word evaluated. -/
theorem sampleWordsDecode : Obligations.SampleWordsDecode := by
  unfold Obligations.SampleWordsDecode
  decide

/-- Settles O51: each line evaluated. -/
theorem assemblerTableRows : Obligations.AssemblerTableRows := by
  refine ⟨?_, ?_, ?_, ?_, ?_, ?_, ?_, ?_, ?_, ?_, ?_, ?_, ?_⟩ <;> decide

end Sys2Proof.Machine
end
